-- ==== Sys2Proof/Word.lean ====
section
/-! DEFINITION. The words of the block: widths only (spec/00_scope.md R6, R8, R10; spec/30_encoding.md R90, R100). -/

namespace Sys2Proof

/-- A level is one bit: `true` is 1 (high), `false` is 0 (low) (R10). -/
abbrev Level := Bool

/-- A command word, CMDW = 40 bits (R90). -/
abbrev CmdWord := BitVec 40

/-- A response word, RSPW = 35 bits (R100). -/
abbrev RspWord := BitVec 35

/-- An output or received word, WMAX = 32 bits (R29, R31). -/
abbrev DataWord := BitVec 32

/-- A sequence register, LMAX = 67 bits: element i of the sequence is bit i (R9, R36). -/
abbrev SeqWord := BitVec 67

end Sys2Proof
end

