-- ==== Sys2Proof/Syntax.lean ====
section
/-! DEFINITION. The instructions: the four host commands of spec/30_encoding.md R92, one constructor per row of
spec/opcode_table.json. Each operand has exactly the width of its field (R93 to R96), so no term is out of range. -/

namespace Sys2Proof

/-- The four commands (R92). `cpol`, `cpha` are the one-bit fields, `w` 8 bits, `ms` 16 bits, `data` 32 bits (R96). -/
inductive Instr where
  | mode (cpol cpha : Level) (w : BitVec 8)
  | delay (ms : BitVec 16)
  | synth (data : DataWord)
  | xfer (data : DataWord)
  deriving DecidableEq, Repr

end Sys2Proof
end

