-- ==== Sys2Proof/WellFormed.lean ====
section
/-! DEFINITION. Assembler lines (spec/30_encoding.md R104, R105) and the range check of their numbers. An `Instr` has
typed operands; a line as written has plain numbers, and the check is what R104 says of each. -/

namespace Sys2Proof

/-- One line of R104, or a pseudo-instruction of R105; operands are the numbers as written. -/
inductive AsmLine where
  | mode (cpol cpha w : Nat)
  | delay (ms : Nat)
  | synth (data : Nat)
  | xfer (data : Nat)
  | nodelay
  | modeN (n w : Nat)
  | transfer (data cpol cpha w : Nat) (delay : Option Nat)
  | synthesize (data cpol cpha w : Nat)
  deriving DecidableEq, Repr

/-- `cpol, cpha ∈ {0,1}` (R104). -/
def bitOk (b : Nat) : Bool := b ≤ 1

/-- `w` is a number 0 .. 255 (R104). -/
def widthOk (w : Nat) : Bool := w ≤ 255

/-- `ms` is a number 0 .. 65535 (R104). -/
def msOk (ms : Nat) : Bool := ms ≤ 65535

/-- `data` is a number 0 .. 0xFFFFFFFF (R104). -/
def dataOk (d : Nat) : Bool := d ≤ 0xFFFFFFFF

/-- A line is well formed when each of its numbers fits its field (R104, R105). -/
def AsmLine.wellFormed : AsmLine → Bool
  | .mode cpol cpha w => bitOk cpol && bitOk cpha && widthOk w
  | .delay ms => msOk ms
  | .synth d => dataOk d
  | .xfer d => dataOk d
  | .nodelay => true
  | .modeN n w => decide (n ≤ 3) && widthOk w
  | .transfer d cpol cpha w dly =>
    dataOk d && bitOk cpol && bitOk cpha && widthOk w && msOk (dly.getD 0)
  | .synthesize d cpol cpha w => dataOk d && bitOk cpol && bitOk cpha && widthOk w

/-- The line an instruction is written as (R104). -/
def Instr.asm : Instr → AsmLine
  | .mode cpol cpha w => .mode cpol.toNat cpha.toNat w.toNat
  | .delay ms => .delay ms.toNat
  | .synth d => .synth d.toNat
  | .xfer d => .xfer d.toNat

/-- An instruction is well formed when the line it is written as is. -/
def Instr.wellFormed (i : Instr) : Bool := i.asm.wellFormed

end Sys2Proof
end

