-- ==== Sys2Proof/Decode.lean ====
section
/-! DEFINITION. The decoder (spec/30_encoding.md R98), the encoder written from the same formats (R93 to R95, R104), the
opcode table's match and mask, and the expansion of assembler lines (R104, R105). -/

namespace Sys2Proof

/-- Why a word is illegal (R97). -/
inductive Reject where
  /-- `OP` is 0x0 or 0x5 .. 0xF. -/
  | reservedOpcode
  /-- A reserved bit of the word's format is 1. -/
  | reservedBits
  deriving DecidableEq, Repr

/-- The opcode field, bits [39:36] (R90). -/
def opField (w : CmdWord) : BitVec 4 := w.extractLsb' 36 4

/-- The decoder of R98. It is the same in every state (R99). -/
def decode (w : CmdWord) : Except Reject Instr :=
  if opField w = 1#4 then
    if w.extractLsb' 10 26 = 0#26 then
      .ok (.mode (w.getLsbD 9) (w.getLsbD 8) (w.extractLsb' 0 8))
    else .error .reservedBits
  else if opField w = 2#4 then
    if w.extractLsb' 16 20 = 0#20 then .ok (.delay (w.extractLsb' 0 16))
    else .error .reservedBits
  else if opField w = 3#4 then
    if w.extractLsb' 32 4 = 0#4 then .ok (.synth (w.extractLsb' 0 32))
    else .error .reservedBits
  else if opField w = 4#4 then
    if w.extractLsb' 32 4 = 0#4 then .ok (.xfer (w.extractLsb' 0 32))
    else .error .reservedBits
  else .error .reservedOpcode

/-- A field of a command word: the value with its lowest bit at bit `lo`. -/
def fieldAt {n : Nat} (v : BitVec n) (lo : Nat) : CmdWord := v.setWidth 40 <<< lo

/-- The encoder: `OP` at [39:36], reserved bits 0, the operands at the places of formats M, D, X (R93 to R95). -/
def encode : Instr → CmdWord
  | .mode cpol cpha w =>
    fieldAt 1#4 36 ||| fieldAt (BitVec.ofBool cpol) 9 ||| fieldAt (BitVec.ofBool cpha) 8 ||| fieldAt w 0
  | .delay ms => fieldAt 2#4 36 ||| fieldAt ms 0
  | .synth d => fieldAt 3#4 36 ||| fieldAt d 0
  | .xfer d => fieldAt 4#4 36 ||| fieldAt d 0

/-- The row's `match` in spec/opcode_table.json. -/
def Instr.tableMatch : Instr → CmdWord
  | .mode _ _ _ => 0x1000000000#40
  | .delay _ => 0x2000000000#40
  | .synth _ => 0x3000000000#40
  | .xfer _ => 0x4000000000#40

/-- The row's `mask` in spec/opcode_table.json. -/
def Instr.tableMask : Instr → CmdWord
  | .mode _ _ _ => 0xFFFFFFFC00#40
  | .delay _ => 0xFFFFFF0000#40
  | .synth _ => 0xFF00000000#40
  | .xfer _ => 0xFF00000000#40

/-- A Mode's two bits as written, 0 or 1. -/
def bitOf (b : Nat) : Level := b == 1

/-- The commands a line stands for (R104, R105); `none` when a number of the line does not fit its field. -/
def AsmLine.assemble (l : AsmLine) : Option (List Instr) :=
  if l.wellFormed then
    match l with
    | .mode cpol cpha w => some [.mode (bitOf cpol) (bitOf cpha) (BitVec.ofNat 8 w)]
    | .delay ms => some [.delay (BitVec.ofNat 16 ms)]
    | .synth d => some [.synth (BitVec.ofNat 32 d)]
    | .xfer d => some [.xfer (BitVec.ofNat 32 d)]
    | .nodelay => some [.delay 0#16]
    | .modeN n w => some [.mode (bitOf (n / 2)) (bitOf (n % 2)) (BitVec.ofNat 8 w)]
    | .transfer d cpol cpha w dly =>
      some [.mode (bitOf cpol) (bitOf cpha) (BitVec.ofNat 8 w), .delay (BitVec.ofNat 16 (dly.getD 0)),
        .xfer (BitVec.ofNat 32 d)]
    | .synthesize d cpol cpha w =>
      some [.mode (bitOf cpol) (bitOf cpha) (BitVec.ofNat 8 w), .synth (BitVec.ofNat 32 d)]
  else none

/-- The word whose bits are `w`, numbered as spec/opcode_table.json numbers them. Every command is one 40-bit word
(R90, R99), so bit 0 of `w` is bit 0 of `cmd_word`; bits from `nbits` up are 0. -/
def tableWord (nbits w : Nat) : CmdWord := BitVec.ofNat 40 (w % 2 ^ nbits)

/-- The instruction the decoder reads from a table word (the host's interface); `none` where it refuses. -/
def decodeTableWord (nbits w : Nat) : Option Instr :=
  match decode (tableWord nbits w) with
  | .ok i => some i
  | .error _ => none

end Sys2Proof
end

