-- ==== Sys2Proof/Config.lean ====
section
/-! DEFINITION. What this hardware fixes (spec/00_scope.md R6, spec/93_implementation_defined.md part 3) and the free
values: constants without a body, of which nothing can be proved (notes/assumptions/2.md, 4.md, 21.md). -/

namespace Sys2Proof.Config

/-- `WMAX`, the largest legal width (R6, D3). -/
def wmax : Nat := 32

/-- `LMAX` = 2·WMAX + 3, the bits of a sequence register (R6). -/
def lmax : Nat := 67

/-- `DOUT_IDLE`, the level of the DataOut padding (R6, R147, D7; notes/assumptions/11.md). -/
def doutIdle : Level := false

/-- `TRIG1_SHIFT`, the offset of the CPHA = 1 sample positions (R6, R148, D8; notes/assumptions/11.md). -/
def trig1Shift : Nat := 1

/-- `CS_ACTIVE`, the active level of chip select (R6, R10). -/
def csActive : Level := false

/-- FREE VALUE: the level of `miso_i` at a step for which the script of inputs says nothing (R66, U5). -/
opaque freeMiso : Nat → Level

/-- FREE VALUE: `io_fault_i` at a step for which the script of inputs says nothing (R64). -/
opaque freeFault : Nat → Bool

/-- FREE VALUE: `wait_done_i` at a step for which the script of inputs says nothing (R226, U6). -/
opaque freeWaitDone : Nat → Bool

/-- FREE VALUE: the content of RX after a `PortError` (R182, U1). -/
opaque freeRx : Nat → DataWord

/-- FREE VALUE: `rsp_word` while `rsp_valid` = 0, of which the spec says nothing (R43, R100; notes/assumptions/21.md). -/
opaque freeRspWord : Nat → RspWord

end Sys2Proof.Config
end

