-- ==== Sys2Proof/Machine/State.lean ====
section
/-! DEFINITION. The state: every element of spec/10_state.md R45, the response pulse of R43, the histories of
spec/20_memory.md R75 and the script of inputs of R21; the state after reset; the reasons a step can stop. -/

namespace Sys2Proof.Machine

/-- The Mode record `{CPOL, CPHA, W}` (R22); its three fields are always written together. -/
structure Mode where
  cpol : Level
  cpha : Level
  w : BitVec 8
  deriving DecidableEq, Repr

/-- The micro-step phase PH (R28); the value 7 is never taken and has no name here. -/
inductive Phase where
  | idle
  | wrD
  | wrK
  | wrS
  | rd
  | wait
  | abort
  deriving DecidableEq, Repr

/-- The status codes 0 to 5 (R211); 6 and 7 are never produced and have no name here. -/
inductive Status where
  | ok
  | invalidConfiguration
  | valueOutOfRange
  | portError
  | noMode
  | illegalCommand
  deriving DecidableEq, Repr

/-- The four sequence registers and SEQLEN, written all five together (R36). -/
structure SeqRegs where
  /-- `SEQ_CS` -/
  cs : SeqWord
  /-- `SEQ_CK` -/
  ck : SeqWord
  /-- `SEQ_DO` -/
  dout : SeqWord
  /-- `SEQ_TR` -/
  tr : SeqWord
  /-- `SEQLEN` -/
  len : BitVec 7
  deriving DecidableEq, Repr

/-- The three written lines of R60; the fourth, MISO, is read only. -/
inductive OutLine where
  | mosi
  | sclk
  | csn
  deriving DecidableEq, Repr

/-- The events of R75, one per micro-step that touches the environment. -/
inductive Event where
  /-- `W(line, v, ok|fail)` -/
  | write (line : OutLine) (v : Level) (ok : Bool)
  /-- `R(level|fail)`; `none` is `fail` -/
  | read (r : Option Level)
  /-- `F(CS_N, v)`, the forced chip-select update of an abort -/
  | force (v : Level)
  /-- `T(ms)` -/
  | wait (ms : BitVec 16)
  deriving DecidableEq, Repr

/-- The levels of the slave's, the line driver's and the timing primitive's inputs during one step (R21, R43). -/
structure Pins where
  /-- `miso_i` -/
  miso : Level
  /-- `io_fault_i` -/
  ioFault : Bool
  /-- `wait_done_i` -/
  waitDone : Bool
  deriving DecidableEq, Repr

/-- What drives `miso_i`: a slave, whose level is an input, or the loopback wiring of R76. -/
inductive Wiring where
  | slave
  | loopback
  deriving DecidableEq, Repr

/-- The inputs still to come, plain data (R21; notes/assumptions/1.md). The model's own, not state of the core. -/
structure Env where
  wiring : Wiring
  /-- what the host has still to present, in order: a command word, or `none` for a step in which it presents none
  although the block is ready (R91, R104, R106; notes/assumptions/5.md) -/
  pending : List (Option CmdWord)
  /-- the level of `rst` at the coming steps, the next one first; 0 after the list -/
  rst : List Bool
  /-- the input levels at the coming steps, the next one first -/
  pins : List Pins
  /-- the levels after `pins` has run out, where the platform ties them (R64, R226); `none`: free values -/
  tied : Option Pins
  /-- the number of steps taken, with which free values are drawn (notes/assumptions/2.md) -/
  time : Nat
  deriving DecidableEq, Repr

structure State where
  /-- `MODE` (R22) -/
  mode : Mode
  /-- `MVALID` (R23) -/
  mvalid : Bool
  /-- `DELAY.MS` (R24) -/
  delayMs : BitVec 16
  /-- `TX` (R29) -/
  tx : DataWord
  /-- `RX` (R31) -/
  rx : DataWord
  /-- `RXVALID` (R31) -/
  rxvalid : Bool
  /-- `SEQ_CS`, `SEQ_CK`, `SEQ_DO`, `SEQ_TR`, `SEQLEN` (R36) -/
  seq : SeqRegs
  /-- `SEQVALID` (R36) -/
  seqvalid : Bool
  /-- `IDX` (R28) -/
  idx : BitVec 7
  /-- `PH` (R28) -/
  ph : Phase
  /-- `BUSY` (R33) -/
  busy : Bool
  /-- `LASTERR` (R35) -/
  lasterr : Status
  /-- `OUT_MOSI` (R39) -/
  outMosi : Level
  /-- `OUT_SCLK` (R39) -/
  outSclk : Level
  /-- `OUT_CSN` (R39) -/
  outCsn : Level
  /-- `rsp_valid` and `rsp_word`: the response pulse of the step just taken (R43, R100) -/
  rsp : Option RspWord
  /-- the inputs still to come -/
  env : Env
  /-- the event history, oldest first (R75) -/
  events : List Event
  /-- the responses given, oldest first: the host's view of R75 -/
  responses : List RspWord
  deriving DecidableEq, Repr

/-- The script of inputs at reset: nothing placed (notes/assumptions/1.md). -/
def Env.empty : Env :=
  { wiring := .slave, pending := [], rst := [], pins := [], tied := none, time := 0 }

/-- The state right after reset (R45); `rsp_valid` is 0 (R241). -/
def State.reset : State :=
  { mode := { cpol := false, cpha := false, w := 0#8 }
    mvalid := false
    delayMs := 0#16
    tx := 0#32
    rx := 0#32
    rxvalid := false
    seq := { cs := 0#67, ck := 0#67, dout := 0#67, tr := 0#67, len := 0#7 }
    seqvalid := false
    idx := 0#7
    ph := .idle
    busy := false
    lasterr := .ok
    outMosi := false
    outSclk := false
    outCsn := true
    rsp := none
    env := Env.empty
    events := []
    responses := [] }

/-- The faults: none. Every error of this block is answered in the response word and the block goes on (R213, R219,
R220; notes/assumptions/14.md), so no step stops with a fault: nobody raises one, which is safe. -/
inductive Fault where
  deriving DecidableEq, Repr

/-- The refusals. -/
inductive Refusal where
  /-- An instruction without a meaning yet. Raised only by an arm of exec that rejects by name; no arm does. Safe. -/
  | notModelled (mnemonic : String)
  deriving DecidableEq, Repr

end Sys2Proof.Machine
end

