-- ==== Sys2Proof/Machine/Flags.lean ====
section
/-! DEFINITION. Codes of the flags and the registers assembled from them: status codes (spec/60_exceptions.md R211), PH
(spec/10_state.md R28), CR0 MODE, CR2 STATUS, CR3 POS (R22, R25, R26), the response word (spec/30_encoding.md R100). -/

namespace Sys2Proof.Machine

/-- The status code as it appears in `ST` and `LASTERR` (R211). -/
def Status.code : Status → BitVec 3
  | .ok => 0#3
  | .invalidConfiguration => 1#3
  | .valueOutOfRange => 2#3
  | .portError => 3#3
  | .noMode => 4#3
  | .illegalCommand => 5#3

/-- The encoding of PH (R28). -/
def Phase.code : Phase → BitVec 3
  | .idle => 0#3
  | .wrD => 1#3
  | .wrK => 2#3
  | .wrS => 3#3
  | .rd => 4#3
  | .wait => 5#3
  | .abort => 6#3

/-- The line numbers of R60. -/
def OutLine.number : OutLine → Nat
  | .mosi => 0
  | .sclk => 1
  | .csn => 2

/-- `LINE_MISO` of R60. -/
def lineMiso : Nat := 3

/-- The response word `{ST[2:0], DATA[31:0]}` (R100). -/
def rspWord (st : Status) (data : DataWord) : RspWord := st.code ++ data

/-- CR0: `{CPOL, CPHA, W}` (R22). -/
def Mode.bits (m : Mode) : BitVec 10 := BitVec.ofBool m.cpol ++ BitVec.ofBool m.cpha ++ m.w

/-- CR2: `{LASTERR, SEQVALID, RXVALID, MVALID, BUSY}` (R25). -/
def State.statusBits (s : State) : BitVec 7 :=
  s.lasterr.code ++ BitVec.ofBool s.seqvalid ++ BitVec.ofBool s.rxvalid ++ BitVec.ofBool s.mvalid ++
    BitVec.ofBool s.busy

/-- CR3: `{PH[2:0], IDX[6:0]}` (R26). -/
def State.posBits (s : State) : BitVec 10 := s.ph.code ++ s.idx

end Sys2Proof.Machine
end

