-- ==== Sys2Proof/Machine/Ops.lean ====
section
/-! DEFINITION. The named operations: the inputs of a step, the access primitives (spec/20_memory.md R62, R63), the
response, raising an error (spec/60_exceptions.md R213), the acceptance rule (spec/30_encoding.md R91) and reset
(spec/70_reset_and_hazards.md R240). -/

namespace Sys2Proof.Machine

/-! The inputs. -/

/-- The free levels drawn at count `n`. -/
def freePins (n : Nat) : Pins :=
  { miso := Config.freeMiso n, ioFault := Config.freeFault n, waitDone := Config.freeWaitDone n }

/-- The input levels `k` steps from now: the script, then the tied levels, else free values (R64, R66, R226). -/
def Env.pinsAt (e : Env) (k : Nat) : Pins :=
  match e.pins[k]? with
  | some p => p
  | none => e.tied.getD (freePins (e.time + k))

/-- The input levels during the coming step. -/
def Env.now (e : Env) : Pins := e.pinsAt 0

/-- The level of `rst` `k` steps from now (R240; notes/assumptions/3.md). -/
def Env.rstAt (e : Env) (k : Nat) : Bool := e.rst.getD k false

/-- One step of the inputs is over. -/
def Env.tick (e : Env) : Env :=
  { e with rst := e.rst.tail, pins := e.pins.tail, time := e.time + 1 }

/-- A step begins: its inputs are taken, and the response pulse of the step before ends (R100). -/
def State.tick (s : State) : State := { s with env := s.env.tick, rsp := none }

/-- The host's next entry is used up, a command accepted or a pause over: `rest` is still to be presented (R91). -/
def State.presented (s : State) (rest : List (Option CmdWord)) : State :=
  { s with env := { s.env with pending := rest } }

/-! Responses and errors. -/

/-- `respond(st, data)`: a one-step pulse on the response port (R100). -/
def State.respond (s : State) (st : Status) (data : DataWord) : State :=
  { s with rsp := some (rspWord st data), responses := s.responses ++ [rspWord st data] }

/-- A command ends with status `st`: LASTERR and the response (R35, R100). -/
def State.finish (s : State) (st : Status) (data : DataWord) : State :=
  State.respond { s with lasterr := st } st data

/-- `raise E` in the accepting step: TAKING AN EXCEPTION. LASTERR takes the code, the response is `(code, 0)`, nothing
else changes (R213). There is no handler, nothing is saved and there is no return from it (R219, R220). -/
def State.raise (s : State) (e : Status) : State := s.finish e 0#32

/-- A command is accepted only while BUSY = 0; one presented while BUSY = 1 has no effect (R91, R33;
U11). That the operation is then the identity is the model's choice (DEDUCED, safe; notes/assumptions/18.md). -/
def State.whenReady (s : State) (f : State → State) : State := if s.busy then s else f s

/-! The line space. -/

/-- The history gains one event (R75). -/
def State.record (s : State) (e : Event) : State := { s with events := s.events ++ [e] }

/-- `OUT[line] <- v` (R62). -/
def State.setOut (s : State) (line : OutLine) (v : Level) : State :=
  match line with
  | .mosi => { s with outMosi := v }
  | .sclk => { s with outSclk := v }
  | .csn => { s with outCsn := v }

/-- `OUT[line]` (R62). -/
def State.out (s : State) (line : OutLine) : Level :=
  match line with
  | .mosi => s.outMosi
  | .sclk => s.outSclk
  | .csn => s.outCsn

/-- `PinWrite(line, v)` (R62): `true` is `ok`, `false` is `fail`, which leaves the register as it was. -/
def State.pinWrite (s : State) (p : Pins) (line : OutLine) (v : Level) : State × Bool :=
  if p.ioFault then (s.record (.write line v false), false)
  else ((s.setOut line v).record (.write line v true), true)

/-- The level on `miso_i` in this step: the slave's, or OUT_MOSI in loopback (R66, R76). -/
def State.misoLevel (s : State) (p : Pins) : Level :=
  match s.env.wiring with
  | .slave => p.miso
  | .loopback => s.outMosi

/-- `PinRead(LINE_MISO)` (R63): a level, or `none` for `fail`. -/
def State.pinRead (s : State) (p : Pins) : State × Option Level :=
  if p.ioFault then (s.record (.read none), none)
  else (s.record (.read (some (s.misoLevel p))), some (s.misoLevel p))

/-! Reset. -/

/-- A step with `rst` = 1: every element takes its reset value; no access, no event, no response (R240 to R242). The
inputs still to come and the histories are no elements of the core and stay (notes/assumptions/13.md). -/
def State.hardReset (s : State) : State :=
  { State.reset with env := s.env.tick, events := s.events, responses := s.responses }

/-! Placing a command (the host's interface; notes/assumptions/7.md). -/

/-- `s` with the word `w` as the one the host presents next, in a state in which the next step accepts it: BUSY = 0,
PH = IDLE, and `rst` = 0 in that step. Nothing else changes. -/
def State.presentNext (s : State) (w : CmdWord) : State :=
  { s with
    busy := false
    ph := .idle
    env := { s.env with
      pending := some w :: s.env.pending
      rst := match s.env.rst with
        | [] => []
        | _ :: r => false :: r } }

end Sys2Proof.Machine
end

