-- ==== Sys2Proof/Machine/Operands.lean ====
section
/-! DEFINITION. The operand checks (spec/40_mode_config.md R122; spec/41_sequence_synth.md R153, R154; spec/30_encoding.md
R96) and the length L (R140). -/

namespace Sys2Proof.Machine

/-- `1 ≤ w ≤ WMAX`: the widths MODE accepts (R122). -/
def widthLegal (w : BitVec 8) : Bool := decide (1 ≤ w.toNat) && decide (w.toNat ≤ Config.wmax)

/-- `data < 2^W`, an exact unsigned comparison (R96, R154). -/
def dataInRange (data : DataWord) (w : BitVec 8) : Bool := decide (data.toNat < 2 ^ w.toNat)

/-- L = 2·W + 3 (R140). -/
def seqLength (w : Nat) : Nat := 2 * w + 3

/-- The checks SYNTH and XFER make, in this order (R218): NoMode, then ValueOutOfRange. `none`: both pass. -/
def State.wordError (s : State) (data : DataWord) : Option Status :=
  if s.mvalid = false then some .noMode
  else if dataInRange data s.mode.w = false then some .valueOutOfRange
  else none

end Sys2Proof.Machine
end

