-- ==== Sys2Proof/Machine/Mode.lean ====
section
/-! DEFINITION. Mode Configuration (spec/40_mode_config.md): the MODE and DELAY commands. -/

namespace Sys2Proof.Machine

/-- MODE in its accepting step (R121): a width outside 1 .. WMAX leaves the Mode as it was (R122, R123). -/
def State.modeStep (s : State) (cpol cpha : Level) (w : BitVec 8) : State :=
  if widthLegal w then
    State.finish { s with mode := { cpol := cpol, cpha := cpha, w := w }, mvalid := true } .ok 0#32
  else s.raise .invalidConfiguration

/-- `MODE cpol, cpha, w` (R121). -/
def execMode (cpol cpha : Level) (w : BitVec 8) (s : State) : Host.Outcome State Fault Refusal :=
  .next (s.whenReady fun s => s.modeStep cpol cpha w)

/-- DELAY in its accepting step (R126). -/
def State.delayStep (s : State) (ms : BitVec 16) : State := State.finish { s with delayMs := ms } .ok 0#32

/-- `DELAY ms` (R126). -/
def execDelay (ms : BitVec 16) (s : State) : Host.Outcome State Fault Refusal :=
  .next (s.whenReady fun s => s.delayStep ms)

end Sys2Proof.Machine
end

