-- ==== Sys2Proof/Machine/Synth.lean ====
section
/-! DEFINITION. The Sequence Synthesizer (spec/41_sequence_synth.md): the four sequences as functions of the index, the
sequence registers they fill, and the SYNTH command. -/

namespace Sys2Proof.Machine

/-- `CSseq(i)`: active (low) on 1 .. 2W (R142). -/
def csSeq (w i : Nat) : Level :=
  if 1 ≤ i ∧ i ≤ 2 * w then Config.csActive else !Config.csActive

/-- `CLK0(i)`: the clock for CPOL = 0 (R143). -/
def clk0 (w i : Nat) : Level := decide (1 ≤ i ∧ i ≤ 2 * w ∧ i % 2 = 0)

/-- `CLKseq(i) = CLK0(i) xor CPOL` (R143). -/
def clkSeq (cpol : Level) (w i : Nat) : Level := xor (clk0 w i) cpol

/-- `b(k) = data[W-1-k]`, the k-th bit on the wire (R145). -/
def wireBit (data : DataWord) (w k : Nat) : Level := data.getLsbD (w - 1 - k)

/-- `lead = 1 + CPHA` (R146). -/
def lead (cpha : Level) : Nat := 1 + cpha.toNat

/-- `DOUTseq(i)` with padding level `idle` (R146; the padding is the parameter DOUT_IDLE, R147). -/
def doutSeqWith (idle : Level) (data : DataWord) (cpha : Level) (w i : Nat) : Level :=
  if lead cpha ≤ i ∧ i ≤ lead cpha + 2 * w - 1 then wireBit data w ((i - lead cpha) / 2) else idle

/-- `DOUTseq(i)` (R146). -/
def doutSeq (data : DataWord) (cpha : Level) (w i : Nat) : Level :=
  doutSeqWith Config.doutIdle data cpha w i

/-- The k-th sample position `2 + CPHA·shift + 2k` (R148). -/
def samplePosWith (shift : Nat) (cpha : Level) (k : Nat) : Nat := 2 + cpha.toNat * shift + 2 * k

/-- `t(k)` (R149). -/
def samplePos (cpha : Level) (k : Nat) : Nat := samplePosWith Config.trig1Shift cpha k

/-- `TRIGseq(i)` with CPHA = 1 offset `shift`: `i` is the k-th position for some k in 0 .. W-1 (R148, C1). -/
def trigSeqWith (shift : Nat) (cpha : Level) (w i : Nat) : Level :=
  (List.range w).any fun k => i == samplePosWith shift cpha k

/-- `TRIGseq(i)` (R148). -/
def trigSeq (cpha : Level) (w i : Nat) : Level := trigSeqWith Config.trig1Shift cpha w i

/-- The register image of the first `n` elements of a sequence: element i is bit i, the bits from `n` up are 0 (R9, R36). -/
def seqImage (f : Nat → Level) : Nat → SeqWord
  | 0 => 0#67
  | n + 1 => seqImage f n ||| (if f n then BitVec.twoPow 67 n else 0#67)

/-- `synthesize(data, mode)`: the contents of the five sequence registers (R141, R152). -/
def synthesize (data : DataWord) (m : Mode) : SeqRegs :=
  let w := m.w.toNat
  let l := seqLength w
  { cs := seqImage (csSeq w) l
    ck := seqImage (clkSeq m.cpol w) l
    dout := seqImage (doutSeq data m.cpha w) l
    tr := seqImage (trigSeq m.cpha w) l
    len := BitVec.ofNat 7 l }

/-- The word and its quadruple are latched: TX, the sequence registers, SEQVALID (R152, R171). -/
def State.loadWord (s : State) (data : DataWord) : State :=
  { s with tx := data, seq := synthesize data s.mode, seqvalid := true }

/-- SYNTH in its accepting step (R152). -/
def State.synthStep (s : State) (data : DataWord) : State :=
  match s.wordError data with
  | some e => s.raise e
  | none => (s.loadWord data).finish .ok (BitVec.ofNat 32 (seqLength s.mode.w.toNat))

/-- `SYNTH data` (R152). -/
def execSynth (data : DataWord) (s : State) : Host.Outcome State Fault Refusal :=
  .next (s.whenReady fun s => s.synthStep data)

end Sys2Proof.Machine
end

