-- ==== Sys2Proof/Machine/Xfer.lean ====
section
/-! DEFINITION. The Transfer Engine (spec/42_transfer_engine.md): the XFER command's accepting step and the micro-steps of
R173 to R182, one definition each. -/

namespace Sys2Proof.Machine

/-- XFER in its accepting step (R171): no response yet, the micro-steps follow. -/
def State.xferStep (s : State) (data : DataWord) : State :=
  match s.wordError data with
  | some e => s.raise e
  | none =>
    { s.loadWord data with rx := 0#32, rxvalid := false, busy := true, idx := 0#7, ph := .wrD }

/-- `XFER data` (R171). -/
def execXfer (data : DataWord) (s : State) : Host.Outcome State Fault Refusal :=
  .next (s.whenReady fun s => s.xferStep data)

/-! The micro-steps. `p` holds the input levels during the step; i = IDX. -/

/-- Element IDX of a sequence register. -/
def State.elem (s : State) (r : SeqWord) : Level := r.getLsbD s.idx.toNat

/-- A write micro-step: PinWrite, then the next phase, or ABORT when it failed (R173 to R175, R181). -/
def State.writeStep (s : State) (p : Pins) (line : OutLine) (v : Level) (nextPh : Phase) : State :=
  let r := s.pinWrite p line v
  { r.1 with ph := if r.2 then nextPh else .abort }

/-- `WR_D` (R173). -/
def microWrD (p : Pins) (s : State) : State := s.writeStep p .mosi (s.elem s.seq.dout) .wrK

/-- `WR_K` (R174). -/
def microWrK (p : Pins) (s : State) : State := s.writeStep p .sclk (s.elem s.seq.ck) .wrS

/-- `WR_S` (R175). -/
def microWrS (p : Pins) (s : State) : State := s.writeStep p .csn (s.elem s.seq.cs) .rd

/-- `sample(v)`: `RX <- ((RX << 1) | v)[31:0]` (R177). -/
def State.sample (s : State) (v : Level) : State :=
  { s with rx := s.rx <<< 1 ||| BitVec.setWidth 32 (BitVec.ofBool v) }

/-- `complete()` (R180): IDX stays. -/
def State.complete (s : State) : State :=
  State.finish { s with busy := false, ph := .idle, rxvalid := true } .ok s.rx

/-- `advance()` (R179). -/
def State.advance (s : State) : State :=
  if s.idx = s.seq.len - 1#7 then s.complete else { s with idx := s.idx + 1#7, ph := .wrD }

/-- The level read at IDX is sampled when the trigger is set there, and discarded when it is not (R176). -/
def State.takeLevel (s : State) (v : Level) : State := if s.elem s.seq.tr then s.sample v else s

/-- After the read of an index: wait when a delay is configured, else advance (R176). -/
def State.waitOrAdvance (s : State) : State :=
  if s.delayMs = 0#16 then s.advance else { s with ph := .wait }

/-- `RD` (R176). -/
def microRd (p : Pins) (s : State) : State :=
  match s.pinRead p with
  | (s, none) => { s with ph := .abort }
  | (s, some v) => (s.takeLevel v).waitOrAdvance

/-- `WAIT` (R178, R226): the engine stays until `wait_done_i` = 1; it does not look at `io_fault_i`. The event `T(ms)` is
recorded when the wait ends (notes/assumptions/8.md). -/
def microWait (p : Pins) (s : State) : State :=
  if p.waitDone then (s.record (.wait s.delayMs)).advance else s

/-- `ABORT` (R182): chip select is forced inactive and PortError reported. RX is unspecified from here on: a free value
(U1; notes/assumptions/4.md). It does not look at the inputs. -/
def microAbort (s : State) : State :=
  State.finish
    { (s.setOut .csn true).record (.force true) with
      busy := false, ph := .idle, rx := Config.freeRx s.env.time }
    .portError 0#32

/-- The micro-step that PH enables (R28); none while PH = IDLE. -/
def microStep (p : Pins) (s : State) : State :=
  match s.ph with
  | .idle => s
  | .wrD => microWrD p s
  | .wrK => microWrK p s
  | .wrS => microWrS p s
  | .rd => microRd p s
  | .wait => microWait p s
  | .abort => microAbort s

end Sys2Proof.Machine
end

