-- ==== Sys2Proof/Machine/Dispatch.lean ====
section
/-! DEFINITION. One arm per constructor of Instr: the accepting step of each command. -/

namespace Sys2Proof.Machine

def exec (i : Instr) (s : State) : Host.Outcome State Fault Refusal :=
  match i with
  | .mode cpol cpha w => Sys2Proof.Machine.execMode cpol cpha w s
  | .delay ms => Sys2Proof.Machine.execDelay ms s
  | .synth data => Sys2Proof.Machine.execSynth data s
  | .xfer data => Sys2Proof.Machine.execXfer data s

end Sys2Proof.Machine
end

