-- ==== Sys2Proof/Machine/Cycle.lean ====
section
/-! DEFINITION. What one step of the machine does: reset, a micro-step of the running transfer, the acceptance of the
command the host presents, or nothing (spec/30_encoding.md R91, R107; spec/70_reset_and_hazards.md R240). -/

namespace Sys2Proof.Machine

/-- The word `w` is accepted (R91): its command runs; an illegal word is answered with IllegalCommand (R97). -/
def acceptWord (w : CmdWord) (s : State) : Host.Outcome State Fault Refusal :=
  match decode w with
  | .ok i => exec i s
  | .error _ => .next (s.whenReady fun s => s.raise .illegalCommand)

/-- A step with PH = IDLE and `rst` = 0: the word the host presents is accepted when BUSY = 0 (R91); with none, nothing
happens (R107). -/
def idleStep (s : State) : Host.Outcome State Fault Refusal :=
  match s.busy, s.env.pending with
  | false, some w :: rest => acceptWord w (s.tick.presented rest)
  | false, none :: rest => .next (s.tick.presented rest)
  | _, _ => .next s.tick

/-- One step. Reset wins over everything (R240, C8); else the micro-step PH enables; else the command port. -/
def cycle (s : State) : Host.Outcome State Fault Refusal :=
  if s.env.rstAt 0 then .next s.hardReset
  else match s.ph with
    | .idle => idleStep s
    | _ => .next (microStep s.env.now s.tick)

end Sys2Proof.Machine
end

