-- ==== Sys2Proof/Machine/Signals.lean ====
section
/-! DEFINITION. The output signals of spec/10_state.md R43, each a view of the state; no command reads a register
(spec/40_mode_config.md R127). -/

namespace Sys2Proof.Machine

/-- `cmd_ready` = not BUSY (R91). -/
def State.cmdReadyO (s : State) : Bool := !s.busy

/-- `rsp_valid` (R100). -/
def State.rspValidO (s : State) : Bool := s.rsp.isSome

/-- `rsp_word`: the response while `rsp_valid` = 1 (R100). The spec gives it no value while `rsp_valid` = 0; there it is a
free value, which is the model's choice (DESIGN CHOICE, safe; notes/assumptions/21.md). -/
def State.rspWordO (s : State) : RspWord :=
  match s.rsp with
  | some r => r
  | none => Config.freeRspWord s.env.time

/-- `mosi_o`, `sclk_o`, `cs_n_o` (R39). -/
def State.mosiO (s : State) : Level := s.out .mosi

def State.sclkO (s : State) : Level := s.out .sclk

def State.csnO (s : State) : Level := s.out .csn

/-- `wait_req_o` = 1 exactly while PH = WAIT (R226). -/
def State.waitReqO (s : State) : Bool := s.ph == .wait

/-- `wait_ms_o` always shows DELAY.MS (R226). -/
def State.waitMsO (s : State) : BitVec 16 := s.delayMs

/-- `mode_o`, `delay_o`, `status_o`, `pos_o` (R22, R24, R25, R26). -/
def State.modeO (s : State) : BitVec 10 := s.mode.bits

def State.delayO (s : State) : BitVec 16 := s.delayMs

def State.statusO (s : State) : BitVec 7 := s.statusBits

def State.posO (s : State) : BitVec 10 := s.posBits

/-- `tx_o`, `rx_o` (R29, R31). -/
def State.txO (s : State) : DataWord := s.tx

def State.rxO (s : State) : DataWord := s.rx

/-- `seq_cs_o`, `seq_ck_o`, `seq_do_o`, `seq_tr_o`, `seq_len_o` (R36). -/
def State.seqCsO (s : State) : SeqWord := s.seq.cs

def State.seqCkO (s : State) : SeqWord := s.seq.ck

def State.seqDoO (s : State) : SeqWord := s.seq.dout

def State.seqTrO (s : State) : SeqWord := s.seq.tr

def State.seqLenO (s : State) : BitVec 7 := s.seq.len

end Sys2Proof.Machine
end

