-- ==== Sys2Proof/Machine/History.lean ====
section
/-! DEFINITION. Views of the event history (spec/20_memory.md R75): what the slave sees, the counts of
spec/42_transfer_engine.md R183, and the history of one completed index. -/

namespace Sys2Proof.Machine

/-- The slave's view: the successful writes, in order (R75). -/
def slaveView : List Event → List (OutLine × Level)
  | [] => []
  | .write l v true :: es => (l, v) :: slaveView es
  | _ :: es => slaveView es

/-- The number of successful line writes (R67, R183). -/
def writesIn (es : List Event) : Nat := (slaveView es).length

/-- The number of successful line reads (R67, R183). -/
def readsIn : List Event → Nat
  | [] => 0
  | .read (some _) :: es => readsIn es + 1
  | _ :: es => readsIn es

/-- The levels the successful reads returned, in order: the oracle's answers (R66, R189). -/
def levelsRead : List Event → List Level
  | [] => []
  | .read (some v) :: es => v :: levelsRead es
  | _ :: es => levelsRead es

/-- The number of waits (R183). -/
def waitsIn : List Event → Nat
  | [] => 0
  | .wait _ :: es => waitsIn es + 1
  | _ :: es => waitsIn es

/-- `W(0, DOUTseq(i), ok) W(1, CLKseq(i), ok) W(2, CSseq(i), ok) R(m)`, then `T(d)` when a delay is configured (R75). -/
def indexEvents (data : DataWord) (m : Mode) (delayMs : BitVec 16) (i : Nat) (level : Level) : List Event :=
  [.write .mosi (doutSeq data m.cpha m.w.toNat i) true, .write .sclk (clkSeq m.cpol m.w.toNat i) true,
    .write .csn (csSeq m.w.toNat i) true, .read (some level)] ++
    (if delayMs ≠ 0#16 then [.wait delayMs] else [])

end Sys2Proof.Machine
end

