-- ==== Sys2Proof/Machine/Loop.lean ====
section
/-! DEFINITION. The whole transfer as one loop (spec/42_transfer_engine.md R185), over the sequence functions instead of
the sequence registers and without IDX, PH and BUSY. The machine runs the micro-steps; the loop is the other form, with
which they are to agree. -/

namespace Sys2Proof.Machine

/-- The steps one index takes: four accesses, and a wait when a delay is configured and answered at once (R91, R172). -/
def stepsPerIndex (delayMs : BitVec 16) : Nat := if delayMs = 0#16 then 4 else 5

/-- One pass of the loop: the three writes, the read, the sample, the wait. `pin k` are the inputs at the k-th step of
the pass; the second component is `false` when an access failed. -/
def loopPass (i : Nat) (pin : Nat → Pins) (s : State) : State × Bool :=
  let w := s.mode.w.toNat
  match s.pinWrite (pin 0) .mosi (doutSeq s.tx s.mode.cpha w i) with
  | (s, false) => (s, false)
  | (s, true) =>
    match s.pinWrite (pin 1) .sclk (clkSeq s.mode.cpol w i) with
    | (s, false) => (s, false)
    | (s, true) =>
      match s.pinWrite (pin 2) .csn (csSeq w i) with
      | (s, false) => (s, false)
      | (s, true) =>
        match s.pinRead (pin 3) with
        | (s, none) => (s, false)
        | (s, some v) =>
          let s := if trigSeq s.mode.cpha w i then s.sample v else s
          (if s.delayMs ≠ 0#16 then s.record (.wait s.delayMs) else s, true)

/-- The loop for `n` more indices from `i`; `false` when an access failed. -/
def loopFrom (pin : Nat → Pins) : Nat → Nat → State → State × Bool
  | 0, _, s => (s, true)
  | n + 1, i, s =>
    match loopPass i (fun k => pin (stepsPerIndex s.delayMs * i + k)) s with
    | (s, false) => (s, false)
    | (s, true) => loopFrom pin n (i + 1) s

/-- `transfer(data)` of R185, after the checks of R171: the state with the word latched, the loop, and its ending. -/
def transferLoop (pin : Nat → Pins) (data : DataWord) (s : State) : State :=
  match loopFrom pin (seqLength s.mode.w.toNat) 0
      { s.loadWord data with rx := 0#32, rxvalid := false } with
  | (s, true) => State.finish { s with rxvalid := true } .ok s.rx
  | (s, false) => ((s.setOut .csn true).record (.force true)).finish .portError 0#32

end Sys2Proof.Machine
end

