-- ==== Sys2Proof/Safety.lean ====
section
/-! DEFINITION. What a consistent state is, and the assumptions on the inputs that statements about several steps name. -/

namespace Sys2Proof.Machine

/-- `n` steps of the machine lead from `s` to `t`. -/
def Runs (n : Nat) (s t : State) : Prop := Host.Core.run Sys2Proof.core n s = .next t

/-- A command word is illegal when its `OP` is 0x0 or 0x5 .. 0xF, or any reserved bit of its format is 1 (R97). -/
def IllegalWord (w : CmdWord) : Prop :=
  opField w = 0#4 ∨ 5 ≤ (opField w).toNat ∨
    (opField w = 1#4 ∧ ∃ i, 10 ≤ i ∧ i ≤ 35 ∧ w.getLsbD i = true) ∨
    (opField w = 2#4 ∧ ∃ i, 16 ≤ i ∧ i ≤ 35 ∧ w.getLsbD i = true) ∨
    ((opField w = 3#4 ∨ opField w = 4#4) ∧ ∃ i, 32 ≤ i ∧ i ≤ 35 ∧ w.getLsbD i = true)

/-- No reset in the coming `n` steps. -/
def State.Unreset (s : State) (n : Nat) : Prop := ∀ k, k < n → s.env.rstAt k = false

/-- In the coming `n` steps the timing primitive answers at once (R226: "ties `wait_done_i` to 1"). -/
def State.Prompt (s : State) (n : Nat) : Prop := ∀ k, k < n → (s.env.pinsAt k).waitDone = true

/-- In the coming `n` steps, `c` to an index, no access fails and every wait is answered at once. The inputs that the
engine does not look at are left open (R64). -/
def State.Answers (s : State) (c n : Nat) : Prop :=
  ∀ k, k < n →
    (k % c < 4 → (s.env.pinsAt k).ioFault = false) ∧ (k % c = 4 → (s.env.pinsAt k).waitDone = true)

/-- `XFER d` is accepted in `s`, which becomes `t`, and the transfer runs `n` steps more: `u` is the first state after it
with BUSY = 0. Waits may take any number of steps and any access may fail. -/
structure EndsIn (d : DataWord) (s t : State) (n : Nat) (u : State) : Prop where
  ready : s.busy = false
  accepted : exec (.xfer d) s = .next t
  started : t.busy = true
  before : ∀ k v, k < n → Runs k t v → v.busy = true
  run : Runs n t u
  ended : u.busy = false

/-- The number of sample positions below `n` (R148). -/
def samplesBelow (m : Mode) (n : Nat) : Nat := (List.range n).countP (trigSeq m.cpha m.w.toNat)

/-- The indices whose read is behind the engine: IDX, and one more once it waits. -/
def State.indicesRead (s : State) : Nat := s.idx.toNat + (if s.ph = .wait then 1 else 0)

/-- What holds while a transfer is in progress (R33, R36, R41, R172, R177). -/
structure State.Running (s : State) : Prop where
  mvalid : s.mvalid = true
  seqvalid : s.seqvalid = true
  inRange : s.tx.toNat < 2 ^ s.mode.w.toNat
  /-- "`SEQ_x[i]` equals the corresponding sequence function at i" -/
  seq : s.seq = synthesize s.tx s.mode
  /-- IDX never exceeds L-1 (R28) -/
  idx : s.idx.toNat < seqLength s.mode.w.toNat
  rxvalid : s.rxvalid = false
  /-- WAIT is entered only when DELAY.MS ≠ 0 (R178) -/
  delay : s.ph = .wait → s.delayMs ≠ 0#16
  /-- the written line holds the element written at this index -/
  mosi : s.ph = .wrK ∨ s.ph = .wrS ∨ s.ph = .rd ∨ s.ph = .wait →
    s.outMosi = doutSeq s.tx s.mode.cpha s.mode.w.toNat s.idx.toNat
  sclk : s.ph = .wrS ∨ s.ph = .rd ∨ s.ph = .wait →
    s.outSclk = clkSeq s.mode.cpol s.mode.w.toNat s.idx.toNat
  csn : s.ph = .rd ∨ s.ph = .wait → s.outCsn = csSeq s.mode.w.toNat s.idx.toNat
  /-- before chip select is written at an index it holds the element of the index before -/
  csnBefore : s.ph = .wrD ∨ s.ph = .wrK ∨ s.ph = .wrS →
    s.outCsn = csSeq s.mode.w.toNat (s.idx.toNat - 1)
  /-- RX holds only the bits sampled so far (R177) -/
  rx : s.rx.toNat < 2 ^ samplesBelow s.mode s.indicesRead

/-- THE INVARIANT of the machine. -/
structure State.Inv (s : State) : Prop where
  /-- "`BUSY` = 1 exactly when `PH` ≠ `IDLE`" (R33) -/
  busy : s.busy = true ↔ s.ph ≠ .idle
  /-- "`MVALID` = 1 implies 1 ≤ `MODE.W` ≤ WMAX" (R23) -/
  width : s.mvalid = true → 1 ≤ s.mode.w.toNat ∧ s.mode.w.toNat ≤ Config.wmax
  /-- chip select is inactive whenever no transfer is in progress (R39, R182, R186, R187) -/
  deselected : s.busy = false → s.outCsn = true
  /-- IDX is at most 66 (U4) -/
  idx : s.idx.toNat < Config.lmax
  /-- SEQLEN is at most 67, and the bits of the sequence registers from SEQLEN up are 0 (R36) -/
  len : s.seq.len.toNat ≤ Config.lmax
  above : ∀ i, s.seq.len.toNat ≤ i →
    s.seq.cs.getLsbD i = false ∧ s.seq.ck.getLsbD i = false ∧ s.seq.dout.getLsbD i = false ∧
      s.seq.tr.getLsbD i = false
  running : s.busy = true → s.Running

end Sys2Proof.Machine
end

