-- ==== Sys2Proof/Certificates/Slice0/Obligations.lean ====
section
/-! DEFINITION. The statements for the provers. Each docstring names the rule of spec/ it formalises. -/

open Sys2Proof Sys2Proof.Machine

/-! ## Reset and encodings -/

/-- R45: every element of the state table has its reset value. -/
def Obligations.ResetLeavesTheTableValues : Prop :=
  State.reset.mode.w = 0#8 ∧ State.reset.mode.cpha = false ∧ State.reset.mode.cpol = false ∧
  State.reset.mvalid = false ∧ State.reset.delayMs = 0#16 ∧ State.reset.tx = 0#32 ∧ State.reset.rx = 0#32 ∧
  State.reset.rxvalid = false ∧ State.reset.seq.cs = 0#67 ∧ State.reset.seq.ck = 0#67 ∧
  State.reset.seq.dout = 0#67 ∧ State.reset.seq.tr = 0#67 ∧ State.reset.seq.len = 0#7 ∧
  State.reset.seqvalid = false ∧ State.reset.idx = 0#7 ∧ State.reset.ph = .idle ∧ State.reset.busy = false ∧
  State.reset.lasterr = .ok ∧ State.reset.outMosi = false ∧ State.reset.outSclk = false ∧
  State.reset.outCsn = true

/-- Words written out from R93 to R95 decode to the command they stand for, and reserved words to none
(spec/95_test_vectors.md M1, M9, M11, M13, M16, M17, M18, M19, M20, M22, Y47, X5). -/
def Obligations.SpecWordsDecode : Prop :=
  decode 0x1000000008#40 = .ok (.mode false false 8#8) ∧
  decode 0x10000003FF#40 = .ok (.mode true true 255#8) ∧
  decode 0x200000FFFF#40 = .ok (.delay 0xFFFF#16) ∧
  decode 0x30FFFFFFFF#40 = .ok (.synth 0xFFFFFFFF#32) ∧
  decode 0x4080000001#40 = .ok (.xfer 0x80000001#32) ∧
  decode 0x1000000408#40 = .error .reservedBits ∧
  decode 0x1800000008#40 = .error .reservedBits ∧
  decode 0x2000010000#40 = .error .reservedBits ∧
  decode 0x4F00000000#40 = .error .reservedBits ∧
  decode 0x0000000000#40 = .error .reservedOpcode ∧
  decode 0x5000000000#40 = .error .reservedOpcode ∧
  decode 0xFFFFFFFFFF#40 = .error .reservedOpcode

/-- R93 to R95, R98: every command decodes from its own word, at every value of every operand. -/
def Obligations.DecodeInvertsEncode : Prop :=
  ∀ i : Instr, decode (encode i) = .ok i

/-- R97, R98: a word that decodes to a command is the word of that command; no two words mean the same. -/
def Obligations.EncodeInvertsDecode : Prop :=
  ∀ (w : CmdWord) (i : Instr), decode w = .ok i → encode i = w

/-- R98 with the match and mask of R93 to R95: a word of a row gives the row's command with its operand fields, and a
word of no row gives none. -/
def Obligations.DecodeFollowsTheFormats : Prop :=
  ∀ w : CmdWord,
    (w &&& 0xFFFFFFFC00#40 = 0x1000000000#40 →
      decode w = .ok (.mode (w.getLsbD 9) (w.getLsbD 8) (w.extractLsb' 0 8))) ∧
    (w &&& 0xFFFFFF0000#40 = 0x2000000000#40 → decode w = .ok (.delay (w.extractLsb' 0 16))) ∧
    (w &&& 0xFF00000000#40 = 0x3000000000#40 → decode w = .ok (.synth (w.extractLsb' 0 32))) ∧
    (w &&& 0xFF00000000#40 = 0x4000000000#40 → decode w = .ok (.xfer (w.extractLsb' 0 32))) ∧
    (w &&& 0xFFFFFFFC00#40 ≠ 0x1000000000#40 → w &&& 0xFFFFFF0000#40 ≠ 0x2000000000#40 →
      w &&& 0xFF00000000#40 ≠ 0x3000000000#40 → w &&& 0xFF00000000#40 ≠ 0x4000000000#40 →
      ∃ e, decode w = .error e)

/-- R104, R105: the words of assembler lines and pseudo-instructions whose numbers are in range. -/
def Obligations.AssemblerLinesGiveTheirWords : Prop :=
  (∀ c p w, c ≤ 1 → p ≤ 1 → w ≤ 255 →
    (AsmLine.mode c p w).assemble.map (List.map fun i => (encode i).toNat) =
      some [0x1000000000 + 512 * c + 256 * p + w]) ∧
  (∀ ms, ms ≤ 65535 →
    (AsmLine.delay ms).assemble.map (List.map fun i => (encode i).toNat) = some [0x2000000000 + ms]) ∧
  (∀ d, d ≤ 0xFFFFFFFF →
    (AsmLine.synth d).assemble.map (List.map fun i => (encode i).toNat) = some [0x3000000000 + d] ∧
    (AsmLine.xfer d).assemble.map (List.map fun i => (encode i).toNat) = some [0x4000000000 + d]) ∧
  (AsmLine.nodelay).assemble = (AsmLine.delay 0).assemble ∧
  (∀ n w, n ≤ 3 → w ≤ 255 → (AsmLine.modeN n w).assemble = (AsmLine.mode (n / 2) (n % 2) w).assemble) ∧
  (∀ d c p w dly, d ≤ 0xFFFFFFFF → c ≤ 1 → p ≤ 1 → w ≤ 255 → dly ≤ 65535 →
    (AsmLine.transfer d c p w (some dly)).assemble.map (List.map fun i => (encode i).toNat) =
      some [0x1000000000 + 512 * c + 256 * p + w, 0x2000000000 + dly, 0x4000000000 + d] ∧
    (AsmLine.transfer d c p w none).assemble = (AsmLine.transfer d c p w (some 0)).assemble ∧
    (AsmLine.synthesize d c p w).assemble.map (List.map fun i => (encode i).toNat) =
      some [0x1000000000 + 512 * c + 256 * p + w, 0x3000000000 + d])

/-! ## The step -/

/-- R91: with `rst` = 0 and BUSY = 0 the word the host presents is accepted, and the step is exec of its command on the
state with the pulse of the step before ended, the word gone from the host's list and the inputs moved on by one step. -/
def Obligations.StepRunsTheDecodedCommand : Prop :=
  ∀ (s : State) (w : CmdWord) (rest : List (Option CmdWord)) (i : Instr),
    s.env.rstAt 0 = false → s.ph = .idle → s.busy = false → s.env.pending = some w :: rest → decode w = .ok i →
    step s = exec i { s with
      rsp := none
      env := { s.env with
        pending := rest, rst := s.env.rst.tail, pins := s.env.pins.tail, time := s.env.time + 1 } }

/-- R97: an illegal word is accepted like any other, changes LASTERR only and is answered (5, 0); every word is illegal or
decodes to a command; the all-zero word is illegal, and no MODE word with zero reserved bits is: it is a MODE command. -/
def Obligations.IllegalWordIsAnswered : Prop :=
  (∀ (s : State) (w : CmdWord) (rest : List (Option CmdWord)),
    s.env.rstAt 0 = false → s.ph = .idle → s.busy = false → s.env.pending = some w :: rest → IllegalWord w →
    step s = .next { s with
      lasterr := .illegalCommand
      rsp := some 0x500000000#35
      responses := s.responses ++ [0x500000000#35]
      env := { s.env with
        pending := rest, rst := s.env.rst.tail, pins := s.env.pins.tail, time := s.env.time + 1 } }) ∧
  (∀ w : CmdWord, IllegalWord w ∨ ∃ i, decode w = .ok i) ∧
  IllegalWord 0#40 ∧
  (∀ (cpol cpha : Level) (w : BitVec 8), ¬ IllegalWord (encode (.mode cpol cpha w)) ∧
    decode (encode (.mode cpol cpha w)) = .ok (.mode cpol cpha w))

/-- While BUSY = 1 no command has an effect. At machine level (R91, R33) the next state of a busy block does not depend on
the words the host presents, and none of them is lost; that they stay in the list `env.pending` is the model's form of
the host (notes/assumptions/5.md). The first clause is no rule's: that exec, which step never calls on a busy state, is
there the identity is the model's choice (notes/assumptions/18.md). -/
def Obligations.BusyTurnsCommandsAway : Prop :=
  (∀ (i : Instr) (s : State), s.busy = true → exec i s = .next s) ∧
  (∀ s : State, s.busy = true → ∃ t, step s = .next t ∧ t.env.pending = s.env.pending ∧
    ∀ ws : List (Option CmdWord),
      step { s with env := { s.env with pending := ws } } = .next { t with env := { t.env with pending := ws } })

/-- R107: in the idle block, with no command presented and no reset, nothing changes but that the response pulse ends and
the inputs move on. -/
def Obligations.NothingHappensWithoutACommand : Prop :=
  ∀ s : State, s.env.rstAt 0 = false → s.ph = .idle → s.busy = false →
    (s.env.pending = [] ∨ ∃ rest, s.env.pending = none :: rest) →
    step s = .next { s with
      rsp := none
      env := { s.env with
        pending := s.env.pending.tail, rst := s.env.rst.tail, pins := s.env.pins.tail
        time := s.env.time + 1 } }

/-- R240: a step with `rst` = 1 gives every element its reset value, whatever the core was doing. That no event and no
response is recorded and that the inputs to come stay is the model's record (notes/assumptions/13.md). -/
def Obligations.ResetWinsOverEverything : Prop :=
  ∀ s : State, s.env.rstAt 0 = true →
    ∃ t, step s = .next t ∧
      t = { State.reset with env := t.env, events := s.events, responses := s.responses } ∧
      t.env.pending = s.env.pending ∧ t.csnO = true ∧ t.sclkO = false ∧ t.mosiO = false ∧
      t.cmdReadyO = true ∧ t.rspValidO = false ∧ t.waitReqO = false

/-- R213, R219, R220: no error stops the block. Every step, and every command in every state, answers a next state. -/
def Obligations.NothingEverStopsTheBlock : Prop :=
  (∀ s : State, ∃ t, step s = .next t) ∧ (∀ (i : Instr) (s : State), ∃ t, exec i s = .next t)

/-! ## The commands -/

/-- R121, R123: a MODE with a legal width makes its Mode the current one and touches nothing else; with another width it
raises InvalidConfiguration, which leaves MODE and MVALID as they were. -/
def Obligations.ModeMakesItsModeCurrent : Prop :=
  ∀ (cpol cpha : Level) (w : BitVec 8) (s : State), s.busy = false →
    (1 ≤ w.toNat → w.toNat ≤ 32 →
      exec (.mode cpol cpha w) s = .next { s with
        mode := { cpol := cpol, cpha := cpha, w := w }
        mvalid := true
        lasterr := .ok
        rsp := some 0#35
        responses := s.responses ++ [0#35] }) ∧
    ((w.toNat < 1 ∨ 32 < w.toNat) →
      exec (.mode cpol cpha w) s = .next { s with
        lasterr := .invalidConfiguration
        rsp := some 0x100000000#35
        responses := s.responses ++ [0x100000000#35] })

/-- R122: an accepted MODE raises InvalidConfiguration, in LASTERR and in the response, exactly when w < 1 or w > 32; and a
step that answers it (ST = 1), from whatever state, or that brings it into LASTERR, accepts such a MODE word. -/
def Obligations.InvalidConfigurationExactlyForBadWidths : Prop :=
  (∀ (cpol cpha : Level) (w : BitVec 8) (s t : State), s.busy = false →
    exec (.mode cpol cpha w) s = .next t →
    (t.lasterr = .invalidConfiguration ↔ w.toNat < 1 ∨ 32 < w.toNat) ∧
    (t.rsp = some 0x100000000#35 ↔ w.toNat < 1 ∨ 32 < w.toNat)) ∧
  (∀ (s t : State) (r : RspWord), step s = .next t → t.rsp = some r → r.extractLsb' 32 3 = 1#3 →
    s.busy = false ∧ ∃ word rest cpol cpha w, s.env.pending = some word :: rest ∧
      decode word = .ok (.mode cpol cpha w) ∧ (w.toNat < 1 ∨ 32 < w.toNat)) ∧
  (∀ s t : State, s.lasterr ≠ .invalidConfiguration → step s = .next t →
    t.lasterr = .invalidConfiguration →
    s.busy = false ∧ ∃ word rest cpol cpha w, s.env.pending = some word :: rest ∧
      decode word = .ok (.mode cpol cpha w) ∧ (w.toNat < 1 ∨ 32 < w.toNat))

/-- R126: DELAY sets DELAY.MS, needs no Mode, and touches nothing else. -/
def Obligations.DelaySetsTheDelay : Prop :=
  ∀ (ms : BitVec 16) (s : State), s.busy = false →
    exec (.delay ms) s = .next { s with
      delayMs := ms
      lasterr := .ok
      rsp := some 0#35
      responses := s.responses ++ [0#35] }

/-- R152: SYNTH of a word in range loads TX and the sequence registers element by element from the sequence functions,
answers L, and touches nothing else; without a Mode, and with a word out of range, it changes LASTERR only. The bounds on
MODE.W are R23 (a clause of State.Inv). -/
def Obligations.SynthLoadsTheSequences : Prop :=
  ∀ (d : DataWord) (s : State), s.busy = false →
    (s.mvalid = false →
      exec (.synth d) s = .next { s with
        lasterr := .noMode, rsp := some 0x400000000#35, responses := s.responses ++ [0x400000000#35] }) ∧
    (s.mvalid = true → 2 ^ s.mode.w.toNat ≤ d.toNat →
      exec (.synth d) s = .next { s with
        lasterr := .valueOutOfRange, rsp := some 0x200000000#35, responses := s.responses ++ [0x200000000#35] }) ∧
    (s.mvalid = true → 1 ≤ s.mode.w.toNat → s.mode.w.toNat ≤ 32 → d.toNat < 2 ^ s.mode.w.toNat →
      ∃ q : SeqRegs,
        exec (.synth d) s = .next { s with
          tx := d
          seq := q
          seqvalid := true
          lasterr := .ok
          rsp := some (BitVec.ofNat 35 (2 * s.mode.w.toNat + 3))
          responses := s.responses ++ [BitVec.ofNat 35 (2 * s.mode.w.toNat + 3)] } ∧
        q.len.toNat = 2 * s.mode.w.toNat + 3 ∧
        ∀ i, i < 67 →
          q.cs.getLsbD i = (if i < 2 * s.mode.w.toNat + 3 then csSeq s.mode.w.toNat i else false) ∧
          q.ck.getLsbD i = (if i < 2 * s.mode.w.toNat + 3 then clkSeq s.mode.cpol s.mode.w.toNat i else false) ∧
          q.dout.getLsbD i =
            (if i < 2 * s.mode.w.toNat + 3 then doutSeq d s.mode.cpha s.mode.w.toNat i else false) ∧
          q.tr.getLsbD i = (if i < 2 * s.mode.w.toNat + 3 then trigSeq s.mode.cpha s.mode.w.toNat i else false))

/-- R171: XFER of a word in range loads TX and the sequence registers exactly as SYNTH does, clears RX and RXVALID, sets
BUSY and goes to (0, WR_D); no response yet, no line touched, nothing else changed. -/
def Obligations.XferStartsATransfer : Prop :=
  ∀ (d : DataWord) (s : State),
    s.busy = false → s.mvalid = true → 1 ≤ s.mode.w.toNat → s.mode.w.toNat ≤ 32 →
    d.toNat < 2 ^ s.mode.w.toNat →
    ∃ q : SeqRegs,
      exec (.xfer d) s = .next { s with
        tx := d
        seq := q
        seqvalid := true
        rx := 0#32
        rxvalid := false
        busy := true
        idx := 0#7
        ph := .wrD } ∧
      (∀ t, exec (.synth d) s = .next t → t.seq = q) ∧
      q.len.toNat = 2 * s.mode.w.toNat + 3 ∧
      ∀ i, i < 67 →
        q.cs.getLsbD i = (if i < 2 * s.mode.w.toNat + 3 then csSeq s.mode.w.toNat i else false) ∧
        q.ck.getLsbD i = (if i < 2 * s.mode.w.toNat + 3 then clkSeq s.mode.cpol s.mode.w.toNat i else false) ∧
        q.dout.getLsbD i =
          (if i < 2 * s.mode.w.toNat + 3 then doutSeq d s.mode.cpha s.mode.w.toNat i else false) ∧
        q.tr.getLsbD i = (if i < 2 * s.mode.w.toNat + 3 then trigSeq s.mode.cpha s.mode.w.toNat i else false)

/-- R153, R218: without a Mode, SYNTH and XFER of any word answer NoMode and change LASTERR only. -/
def Obligations.NoModeAnswersSynthAndXfer : Prop :=
  ∀ (d : DataWord) (s : State), s.busy = false → s.mvalid = false →
    (exec (.synth d) s = .next { s with
      lasterr := .noMode, rsp := some 0x400000000#35, responses := s.responses ++ [0x400000000#35] }) ∧
    (exec (.xfer d) s = .next { s with
      lasterr := .noMode, rsp := some 0x400000000#35, responses := s.responses ++ [0x400000000#35] })

/-- R154: with a Mode, SYNTH and XFER raise ValueOutOfRange exactly when data ≥ 2^W; it changes LASTERR only. -/
def Obligations.ValueOutOfRangeExactlyFromTwoToTheW : Prop :=
  ∀ (d : DataWord) (s : State), s.busy = false → s.mvalid = true →
    (2 ^ s.mode.w.toNat ≤ d.toNat →
      (exec (.synth d) s = .next { s with
        lasterr := .valueOutOfRange, rsp := some 0x200000000#35, responses := s.responses ++ [0x200000000#35] }) ∧
      (exec (.xfer d) s = .next { s with
        lasterr := .valueOutOfRange, rsp := some 0x200000000#35, responses := s.responses ++ [0x200000000#35] })) ∧
    (d.toNat < 2 ^ s.mode.w.toNat →
      (∀ t, exec (.synth d) s = .next t → t.lasterr = .ok) ∧
      (∀ t, exec (.xfer d) s = .next t → t.busy = true ∧ t.lasterr = s.lasterr ∧ t.rsp = s.rsp))

/-- R121 "Not touched", R37: what MODE leaves unchanged on every path. -/
def Obligations.ModeFrame : Prop :=
  ∀ (cpol cpha : Level) (w : BitVec 8) (s t : State), exec (.mode cpol cpha w) s = .next t →
    t.delayMs = s.delayMs ∧ t.tx = s.tx ∧ t.rx = s.rx ∧ t.rxvalid = s.rxvalid ∧ t.seq = s.seq ∧
    t.seqvalid = s.seqvalid ∧ t.idx = s.idx ∧ t.ph = s.ph ∧ t.busy = s.busy ∧ t.outMosi = s.outMosi ∧
    t.outSclk = s.outSclk ∧ t.outCsn = s.outCsn ∧ t.events = s.events ∧ t.env = s.env

/-- R126, R37: what DELAY leaves unchanged on every path. -/
def Obligations.DelayFrame : Prop :=
  ∀ (ms : BitVec 16) (s t : State), exec (.delay ms) s = .next t →
    t.mode = s.mode ∧ t.mvalid = s.mvalid ∧ t.tx = s.tx ∧ t.rx = s.rx ∧ t.rxvalid = s.rxvalid ∧ t.seq = s.seq ∧
    t.seqvalid = s.seqvalid ∧ t.idx = s.idx ∧ t.ph = s.ph ∧ t.busy = s.busy ∧ t.outMosi = s.outMosi ∧
    t.outSclk = s.outSclk ∧ t.outCsn = s.outCsn ∧ t.events = s.events ∧ t.env = s.env

/-- R152 "Not touched", R37: what SYNTH leaves unchanged on every path; a failing SYNTH leaves TX and the sequence
registers too. -/
def Obligations.SynthFrame : Prop :=
  ∀ (d : DataWord) (s t : State), exec (.synth d) s = .next t →
    t.mode = s.mode ∧ t.mvalid = s.mvalid ∧ t.delayMs = s.delayMs ∧ t.rx = s.rx ∧ t.rxvalid = s.rxvalid ∧
    t.idx = s.idx ∧ t.ph = s.ph ∧ t.busy = s.busy ∧ t.outMosi = s.outMosi ∧ t.outSclk = s.outSclk ∧
    t.outCsn = s.outCsn ∧ t.events = s.events ∧ t.env = s.env ∧
    ((s.mvalid = false ∨ 2 ^ s.mode.w.toNat ≤ d.toNat) →
      t.tx = s.tx ∧ t.seq = s.seq ∧ t.seqvalid = s.seqvalid)

/-- R171, R214, R37: what XFER's accepting step leaves unchanged on every path; a failing XFER leaves everything but
LASTERR and the response. -/
def Obligations.XferFrame : Prop :=
  ∀ (d : DataWord) (s t : State), exec (.xfer d) s = .next t →
    t.mode = s.mode ∧ t.mvalid = s.mvalid ∧ t.delayMs = s.delayMs ∧ t.outMosi = s.outMosi ∧
    t.outSclk = s.outSclk ∧ t.outCsn = s.outCsn ∧ t.events = s.events ∧ t.env = s.env ∧
    ((s.mvalid = false ∨ 2 ^ s.mode.w.toNat ≤ d.toNat) →
      t.tx = s.tx ∧ t.seq = s.seq ∧ t.seqvalid = s.seqvalid ∧ t.rx = s.rx ∧ t.rxvalid = s.rxvalid ∧
      t.busy = s.busy ∧ t.idx = s.idx ∧ t.ph = s.ph)

/-- R38: an operation uses nothing that an earlier one left in TX, RX, IDX or the sequence registers. -/
def Obligations.SynthAndXferUseNothingOld : Prop :=
  ∀ (s : State) (d x y : DataWord) (q : SeqRegs) (a b : Bool) (j : BitVec 7),
    s.busy = false → s.mvalid = true → d.toNat < 2 ^ s.mode.w.toNat →
    exec (.synth d) { s with tx := x, seq := q, seqvalid := a } = exec (.synth d) s ∧
    exec (.xfer d) { s with tx := x, seq := q, seqvalid := a, rx := y, rxvalid := b, idx := j } =
      exec (.xfer d) s

/-! ## The micro-steps -/

/-- R173 to R175: each write micro-step writes element IDX of its register to its own line and goes on, or, when the
access fails, writes nothing and goes to ABORT; either way one event is recorded and nothing else changes. -/
def Obligations.WriteMicroSteps : Prop :=
  ∀ s : State, s.env.rstAt 0 = false →
    (s.ph = .wrD → step s = .next
      (if s.env.now.ioFault then
        { s.tick with ph := .abort, events := s.events ++ [.write .mosi (s.seq.dout.getLsbD s.idx.toNat) false] }
      else
        { s.tick with
          outMosi := s.seq.dout.getLsbD s.idx.toNat, ph := .wrK
          events := s.events ++ [.write .mosi (s.seq.dout.getLsbD s.idx.toNat) true] })) ∧
    (s.ph = .wrK → step s = .next
      (if s.env.now.ioFault then
        { s.tick with ph := .abort, events := s.events ++ [.write .sclk (s.seq.ck.getLsbD s.idx.toNat) false] }
      else
        { s.tick with
          outSclk := s.seq.ck.getLsbD s.idx.toNat, ph := .wrS
          events := s.events ++ [.write .sclk (s.seq.ck.getLsbD s.idx.toNat) true] })) ∧
    (s.ph = .wrS → step s = .next
      (if s.env.now.ioFault then
        { s.tick with ph := .abort, events := s.events ++ [.write .csn (s.seq.cs.getLsbD s.idx.toNat) false] }
      else
        { s.tick with
          outCsn := s.seq.cs.getLsbD s.idx.toNat, ph := .rd
          events := s.events ++ [.write .csn (s.seq.cs.getLsbD s.idx.toNat) true] }))

/-- R176, R177, R179, R180: the RD micro-step. `v` is the level on `miso_i`; `r` is RX with `v` shifted in at the bottom
when the trigger is set, and RX otherwise. -/
def Obligations.ReadMicroStep : Prop :=
  ∀ s : State, s.env.rstAt 0 = false → s.ph = .rd →
    (s.env.now.ioFault = true →
      step s = .next { s.tick with ph := .abort, events := s.events ++ [.read none] }) ∧
    (s.env.now.ioFault = false →
      ∃ (v : Level) (r : DataWord),
        (s.env.wiring = .slave → v = s.env.now.miso) ∧ (s.env.wiring = .loopback → v = s.outMosi) ∧
        (s.seq.tr.getLsbD s.idx.toNat = false → r = s.rx) ∧
        (s.seq.tr.getLsbD s.idx.toNat = true →
          r.getLsbD 0 = v ∧ ∀ k, k < 31 → r.getLsbD (k + 1) = s.rx.getLsbD k) ∧
        (s.delayMs ≠ 0#16 →
          step s = .next { s.tick with rx := r, ph := .wait, events := s.events ++ [.read (some v)] }) ∧
        (s.delayMs = 0#16 → s.idx ≠ s.seq.len - 1#7 →
          step s = .next { s.tick with
            rx := r, idx := s.idx + 1#7, ph := .wrD, events := s.events ++ [.read (some v)] }) ∧
        (s.delayMs = 0#16 → s.idx = s.seq.len - 1#7 →
          step s = .next { s.tick with
            rx := r, busy := false, ph := .idle, rxvalid := true, lasterr := .ok
            events := s.events ++ [.read (some v)]
            rsp := some (0#3 ++ r), responses := s.responses ++ [0#3 ++ r] }))

/-- R178, R226, R256: the engine stays in WAIT until `wait_done_i` = 1, then advances; `io_fault_i` plays no part. That
the event T(ms) is recorded when the wait ends is the model's choice (notes/assumptions/8.md). -/
def Obligations.WaitMicroStep : Prop :=
  ∀ s : State, s.env.rstAt 0 = false → s.ph = .wait →
    (s.env.now.waitDone = false → step s = .next s.tick) ∧
    (s.env.now.waitDone = true → s.idx ≠ s.seq.len - 1#7 →
      step s = .next { s.tick with
        idx := s.idx + 1#7, ph := .wrD, events := s.events ++ [.wait s.delayMs] }) ∧
    (s.env.now.waitDone = true → s.idx = s.seq.len - 1#7 →
      step s = .next { s.tick with
        busy := false, ph := .idle, rxvalid := true, lasterr := .ok
        events := s.events ++ [.wait s.delayMs]
        rsp := some (0#3 ++ s.rx), responses := s.responses ++ [0#3 ++ s.rx] })

/-- R182: ABORT forces chip select inactive, ends the transfer with PortError and keeps IDX, MOSI and SCLK; RX is some
value, of which nothing is said (U1). -/
def Obligations.AbortMicroStep : Prop :=
  ∀ s : State, s.env.rstAt 0 = false → s.ph = .abort →
    ∃ v : DataWord, step s = .next { s.tick with
      outCsn := true, busy := false, ph := .idle, lasterr := .portError, rx := v
      events := s.events ++ [.force true]
      rsp := some 0x300000000#35, responses := s.responses ++ [0x300000000#35] }

/-- R64, R260: outside the four access micro-steps the value of `io_fault_i` has no influence. -/
def Obligations.IoFaultIgnoredOutsideAccesses : Prop :=
  ∀ (s : State) (p : Pins) (ps : List Pins) (b : Bool),
    s.ph = .idle ∨ s.ph = .wait ∨ s.ph = .abort → s.env.pins = p :: ps →
    step { s with env := { s.env with pins := { p with ioFault := b } :: ps } } = step s

/-- R181, R182, R187: when an access fails, two steps later the transfer is over: chip select inactive, MOSI and SCLK as
they were, IDX at the failing index, no result, PortError answered. -/
def Obligations.FailedAccessAbortsTheTransfer : Prop :=
  ∀ s : State, s.Inv → s.ph = .wrD ∨ s.ph = .wrK ∨ s.ph = .wrS ∨ s.ph = .rd →
    s.Unreset 2 → s.env.now.ioFault = true →
    ∃ (t : State) (e : Event), Runs 2 s t ∧
      t.outCsn = true ∧ t.outMosi = s.outMosi ∧ t.outSclk = s.outSclk ∧ t.idx = s.idx ∧ t.ph = .idle ∧
      t.busy = false ∧ t.rxvalid = false ∧ t.tx = s.tx ∧ t.seq = s.seq ∧ t.seqvalid = true ∧
      t.mode = s.mode ∧ t.mvalid = s.mvalid ∧ t.delayMs = s.delayMs ∧ t.lasterr = .portError ∧
      t.rsp = some 0x300000000#35 ∧ t.responses = s.responses ++ [0x300000000#35] ∧
      (e = .read none ∨ ∃ l v, e = .write l v false) ∧ t.events = s.events ++ [e, .force true]

/-! ## The sequences -/

/-- R142: ChipSelect as a string is `1` + `0`^(2W) + `11`, and its register image. -/
def Obligations.ChipSelectString : Prop :=
  ∀ w : Nat,
    (∀ i, csSeq w i = if 1 ≤ i ∧ i ≤ 2 * w then false else true) ∧
    (List.range (2 * w + 3)).map (csSeq w) = [true] ++ List.replicate (2 * w) false ++ [true, true] ∧
    (w ≤ 32 → (seqImage (csSeq w) (2 * w + 3)).toNat = 1 + 2 ^ (2 * w + 1) + 2 ^ (2 * w + 2))

/-- R143: Clock as a string is CPOL, W periods of (CPOL, not CPOL), CPOL, CPOL; CPOL = 1 is the complement of CPOL = 0; and
its register images. -/
def Obligations.ClockString : Prop :=
  ∀ w : Nat,
    (∀ cpol : Level, (List.range (2 * w + 3)).map (clkSeq cpol w) =
      [cpol] ++ (List.replicate w [cpol, !cpol]).flatten ++ [cpol, cpol]) ∧
    (∀ i, clkSeq false w i = true ↔ 1 ≤ i ∧ i ≤ 2 * w ∧ i % 2 = 0) ∧
    (∀ i, clkSeq true w i = !clkSeq false w i) ∧
    (w ≤ 32 →
      (seqImage (clkSeq false w) (2 * w + 3)).toNat = ((List.range w).map fun k => 2 ^ (2 + 2 * k)).sum ∧
      (seqImage (clkSeq true w) (2 * w + 3)).toNat =
        2 ^ (2 * w + 3) - 1 - ((List.range w).map fun k => 2 ^ (2 + 2 * k)).sum)

/-- R146, R147: DataOut as a string is the doubled bits, most significant first (R145), behind 1 + CPHA and before
2 - CPHA padding levels 0, the value R147 fixes for DOUT_IDLE. -/
def Obligations.DataOutString : Prop :=
  ∀ (d : DataWord) (w : Nat),
    ((List.range (2 * w + 3)).map (doutSeq d false w) =
      [false] ++ (List.range w).flatMap (fun k => [d.getLsbD (w - 1 - k), d.getLsbD (w - 1 - k)]) ++
        [false, false]) ∧
    ((List.range (2 * w + 3)).map (doutSeq d true w) =
      [false, false] ++ (List.range w).flatMap (fun k => [d.getLsbD (w - 1 - k), d.getLsbD (w - 1 - k)]) ++
        [false])

/-- R148: SampleTrigger as a string is (`01`)^W behind 1 + CPHA and before 2 - CPHA zeros. -/
def Obligations.SampleTriggerString : Prop :=
  ∀ w : Nat,
    ((List.range (2 * w + 3)).map (trigSeq false w) =
      [false] ++ (List.replicate w [false, true]).flatten ++ [false, false]) ∧
    ((List.range (2 * w + 3)).map (trigSeq true w) =
      [false, false] ++ (List.replicate w [false, true]).flatten ++ [false])

/-- R149 (a) to (f): the W sample positions, the levels of the other sequences there, and the register image. -/
def Obligations.SamplePositionsAndLevels : Prop :=
  ∀ (d : DataWord) (cpol cpha : Level) (w : Nat),
    (List.range (2 * w + 3)).countP (trigSeq cpha w) = w ∧
    (∀ i, trigSeq cpha w i = true ↔ ∃ k, k < w ∧ i = 2 + cpha.toNat + 2 * k) ∧
    (∀ k, k < w →
      doutSeq d cpha w (2 + cpha.toNat + 2 * k) = d.getLsbD (w - 1 - k) ∧
      clkSeq cpol w (2 + cpha.toNat + 2 * k) = (if cpha then cpol else !cpol) ∧
      (csSeq w (2 + cpha.toNat + 2 * k) = true ↔ cpha = true ∧ k = w - 1)) ∧
    (∀ i, trigSeq false w i = clk0 w i) ∧
    (trigSeq cpha w 0 = false ∧ trigSeq cpha w 1 = false ∧ trigSeq cpha w (2 * w + 2) = false) ∧
    (w ≤ 32 → (seqImage (trigSeq cpha w) (2 * w + 3)).toNat =
      ((List.range w).map fun k => 2 ^ (2 + cpha.toNat + 2 * k)).sum)

/-- N3, C1, D7, D8: with either padding level and with either reading of the CPHA = 1 sample positions, every sample
position k carries bit k; so no received word depends on the two parameters under loopback. -/
def Obligations.SamplesMeetTheirBitForBothParameters : Prop :=
  ∀ (idle cpha : Level) (shift : Nat) (d : DataWord) (w k : Nat), shift ≤ 1 → k < w →
    doutSeqWith idle d cpha w (samplePosWith shift cpha k) = d.getLsbD (w - 1 - k)


/-- R245, R147, R144: at the first and at the last index the three lines carry their idle levels. -/
def Obligations.IdleLevelsAtBothEnds : Prop :=
  ∀ (d : DataWord) (cpol cpha : Level) (w : Nat),
    doutSeq d cpha w 0 = false ∧ clkSeq cpol w 0 = cpol ∧ csSeq w 0 = true ∧
    (1 ≤ w → doutSeq d cpha w (2 * w + 2) = false) ∧
    clkSeq cpol w (2 * w + 2) = cpol ∧ csSeq w (2 * w + 2) = true

/-- R155: the indices at which each line changes level. -/
def Obligations.EdgeTable : Prop :=
  ∀ (d : DataWord) (cpol cpha : Level) (w i : Nat), 1 ≤ w → i < 2 * w + 2 →
    (csSeq w (i + 1) ≠ csSeq w i ↔ i + 1 = 1 ∨ i + 1 = 2 * w + 1) ∧
    (clkSeq cpol w (i + 1) ≠ clkSeq cpol w i ↔ 2 ≤ i + 1 ∧ i + 1 ≤ 2 * w + 1) ∧
    (doutSeq d cpha w (i + 1) ≠ doutSeq d cpha w i → ∃ k, k ≤ w ∧ i + 1 = 1 + cpha.toNat + 2 * k)

/-! ## Invariants and whole-machine rules -/

/-- The invariant holds after reset, whatever inputs are to come. -/
def Obligations.InvariantAtReset : Prop :=
  ∀ e : Env, ({ State.reset with env := e } : State).Inv

/-- R23, R28, R31, R33, R36, R39, R172, R177: every step keeps the invariant (BUSY exactly when PH is not IDLE, a legal
width, chip select inactive whenever BUSY = 0, and what holds inside a transfer). -/
def Obligations.InvariantKeptByEveryStep : Prop :=
  ∀ s t : State, s.Inv → step s = .next t → t.Inv

/-- R39, R182, R186, R187: in every state that any inputs can lead to from reset, the slave is deselected whenever the
block is not busy. -/
def Obligations.IdleBlockNeverSelectsTheSlave : Prop :=
  ∀ (e : Env) (n : Nat) (t : State), Runs n { State.reset with env := e } t →
    t.Inv ∧ (t.cmdReadyO = true → t.csnO = true)

/-- R124: without reset a Mode once valid stays valid, and the only step that makes one valid accepts a MODE with a legal
width. -/
def Obligations.OnlyModeConfigures : Prop :=
  ∀ s t : State, s.env.rstAt 0 = false → step s = .next t →
    (s.mvalid = true → t.mvalid = true) ∧
    (s.mvalid = false → t.mvalid = true →
      s.busy = false ∧ ∃ w rest cpol cpha n, s.env.pending = some w :: rest ∧
        decode w = .ok (.mode cpol cpha n) ∧ 1 ≤ n.toNat ∧ n.toNat ≤ 32 ∧
        t.mode = { cpol := cpol, cpha := cpha, w := n })

/-- R41, R74: while BUSY = 1 no step but reset changes the Mode, the delay, TX or the sequence registers. -/
def Obligations.TransferSeesOneConfiguration : Prop :=
  ∀ s t : State, s.env.rstAt 0 = false → s.busy = true → step s = .next t →
    t.mode = s.mode ∧ t.mvalid = s.mvalid ∧ t.delayMs = s.delayMs ∧ t.tx = s.tx ∧ t.seq = s.seq ∧
    t.seqvalid = s.seqvalid

/-- R28, R179: in a transfer no step but reset takes IDX back, past L-1, or by more than one. -/
def Obligations.IndexOnlyGoesUp : Prop :=
  ∀ s t : State, s.Inv → s.env.rstAt 0 = false → s.busy = true → step s = .next t →
    (t.idx = s.idx ∨ (t.idx.toNat = s.idx.toNat + 1 ∧ t.ph = .wrD)) ∧
    t.idx.toNat ≤ 2 * s.mode.w.toNat + 2

/-- R39, R37: without reset no step in which no transfer runs touches a line. -/
def Obligations.OnlyMicroStepsTouchTheLines : Prop :=
  ∀ s t : State, s.env.rstAt 0 = false → s.ph = .idle → step s = .next t →
    t.outMosi = s.outMosi ∧ t.outSclk = s.outSclk ∧ t.outCsn = s.outCsn ∧ t.events = s.events

/-- R69, R72: without reset no two of the three lines change in one step. -/
def Obligations.NoTwoLinesChangeAtOnce : Prop :=
  ∀ s t : State, s.env.rstAt 0 = false → step s = .next t →
    ∃ l : OutLine, ∀ l' : OutLine, l' ≠ l → t.out l' = s.out l'

/-- R100, R91: a step without reset gives at most one response, and then the block is ready; a running transfer gives
its response in the step that ends it; an accepted word gives its response at once or starts a transfer. -/
def Obligations.OneResponsePerCommand : Prop :=
  ∀ s t : State, s.Inv → s.env.rstAt 0 = false → step s = .next t →
    ((t.rsp = none ∧ t.responses = s.responses) ∨
      ∃ r, t.rsp = some r ∧ t.responses = s.responses ++ [r] ∧ t.busy = false) ∧
    (s.busy = true → (t.busy = false ↔ t.rspValidO = true)) ∧
    (s.busy = false → ∀ w rest, s.env.pending = some w :: rest → (t.busy = true ↔ t.rspValidO = false))

/-- R192: when every wait is answered at once and no reset comes, a transfer in progress ends within 5·67 + 1 steps, with
exactly one response. -/
def Obligations.EveryTransferEnds : Prop :=
  ∀ s : State, s.Inv → s.busy = true → s.Unreset 336 → s.Prompt 336 →
    ∃ (n : Nat) (t : State) (r : RspWord), n ≤ 336 ∧ Runs n s t ∧ t.busy = false ∧ t.rsp = some r ∧
      t.responses = s.responses ++ [r]

/-! ## The whole transfer -/

/-- R185: the micro-steps agree with the loop form, whatever accesses fail: after the accepting step they reach a state
with the loop's lines, history, status, response and, unless the transfer was aborted, the loop's result. -/
def Obligations.MicroStepsAgreeWithTheLoop : Prop :=
  ∀ (d : DataWord) (s t : State), s.busy = false → s.mvalid = true → 1 ≤ s.mode.w.toNat →
    s.mode.w.toNat ≤ 32 → d.toNat < 2 ^ s.mode.w.toNat → s.Unreset 336 → s.Prompt 336 →
    exec (.xfer d) s = .next t →
    ∃ (n : Nat) (u : State), n ≤ 336 ∧ Runs n t u ∧ u.busy = false ∧ u.ph = .idle ∧
      u.outMosi = (transferLoop s.env.pinsAt d s).outMosi ∧
      u.outSclk = (transferLoop s.env.pinsAt d s).outSclk ∧
      u.outCsn = (transferLoop s.env.pinsAt d s).outCsn ∧
      u.events = (transferLoop s.env.pinsAt d s).events ∧
      u.lasterr = (transferLoop s.env.pinsAt d s).lasterr ∧
      u.rxvalid = (transferLoop s.env.pinsAt d s).rxvalid ∧
      u.rsp = (transferLoop s.env.pinsAt d s).rsp ∧
      u.responses = (transferLoop s.env.pinsAt d s).responses ∧
      (u.rxvalid = true → u.rx = (transferLoop s.env.pinsAt d s).rx)

/-- R91, R171: with the waits answered at once and no access failing, XFER is accepted, keeps the block busy for 4·L
micro-steps with no delay configured and 5·L with one, and completes with the received word as its response. -/
def Obligations.TransferTakesFourOrFiveStepsPerIndex : Prop :=
  ∀ (d : DataWord) (s : State), s.busy = false → s.mvalid = true → 1 ≤ s.mode.w.toNat →
    s.mode.w.toNat ≤ 32 → d.toNat < 2 ^ s.mode.w.toNat →
    s.Unreset (stepsPerIndex s.delayMs * (2 * s.mode.w.toNat + 3)) →
    s.Answers (stepsPerIndex s.delayMs) (stepsPerIndex s.delayMs * (2 * s.mode.w.toNat + 3)) →
    ∃ t u : State, EndsIn d s t ((if s.delayMs = 0#16 then 4 else 5) * (2 * s.mode.w.toNat + 3)) u ∧
      u.rxvalid = true ∧ u.rsp = some (0#3 ++ u.rx)

/-- R186: the state after the step that completes a transfer, however long its waits took. -/
def Obligations.CompletedTransferEndState : Prop :=
  ∀ s t : State, s.Inv → s.busy = true → step s = .next t → t.busy = false → t.rxvalid = true →
    t.outMosi = false ∧ t.outSclk = s.mode.cpol ∧ t.outCsn = true ∧ t.idx.toNat = 2 * s.mode.w.toNat + 2 ∧
    t.ph = .idle ∧ t.tx = s.tx ∧ t.lasterr = .ok ∧ t.seq = synthesize s.tx s.mode ∧ t.mode = s.mode ∧
    t.mvalid = true ∧ t.delayMs = s.delayMs ∧ t.rsp = some (0#3 ++ t.rx) ∧
    t.rx.toNat < 2 ^ s.mode.w.toNat

/-- R75, R172, R76: the event history of a completed transfer, index by index; `m i` is the level read at index i, which
in loopback is DataOut's own. -/
def Obligations.CompletedTransferHistory : Prop :=
  ∀ (d : DataWord) (s t u : State) (n : Nat), s.Inv → EndsIn d s t n u → u.rxvalid = true →
    ∃ m : Nat → Level,
      u.events = s.events ++
        (List.range (2 * s.mode.w.toNat + 3)).flatMap (fun i => indexEvents d s.mode s.delayMs i (m i)) ∧
      (s.env.wiring = .loopback →
        ∀ i, i < 2 * s.mode.w.toNat + 3 → m i = doutSeq d s.mode.cpha s.mode.w.toNat i)

/-- R183: a completed transfer makes 6W + 9 writes and 2W + 3 reads, and 2W + 3 waits or none; one aborted at index i makes
3i to 3i + 3 writes, i reads, i waits or none, and the forced chip-select update last. -/
def Obligations.TransferCounts : Prop :=
  ∀ (d : DataWord) (s t u : State) (n : Nat), s.Inv → EndsIn d s t n u →
    (u.rxvalid = true →
      ∃ es, u.events = s.events ++ es ∧ writesIn es = 6 * s.mode.w.toNat + 9 ∧
        readsIn es = 2 * s.mode.w.toNat + 3 ∧
        waitsIn es = (if s.delayMs = 0#16 then 0 else 2 * s.mode.w.toNat + 3)) ∧
    (u.lasterr = .portError →
      ∃ es e j, u.events = s.events ++ (es ++ [e, .force true]) ∧
        readsIn es = u.idx.toNat ∧ waitsIn es = (if s.delayMs = 0#16 then 0 else u.idx.toNat) ∧
        writesIn es = 3 * u.idx.toNat + j ∧
        ((j = 0 ∧ ∃ v, e = .write .mosi v false) ∨ (j = 1 ∧ ∃ v, e = .write .sclk v false) ∨
          (j = 2 ∧ ∃ v, e = .write .csn v false) ∨ (j = 3 ∧ e = .read none)))

/-- R189, R68: the result law: with m(i) the level returned by the read at index i, a completed transfer returns the sum of
m(t(k)) · 2^(W-1-k). No other level, not the word sent and not CPOL occurs in it. -/
def Obligations.ResultLaw : Prop :=
  ∀ (d : DataWord) (s t u : State) (n : Nat), s.Inv → EndsIn d s t n u → u.rxvalid = true →
    ∃ (es : List Event) (m : Nat → Level),
      u.events = s.events ++ es ∧ levelsRead es = (List.range (2 * s.mode.w.toNat + 3)).map m ∧
      u.rsp = some (0#3 ++ u.rx) ∧
      u.rx.toNat = ((List.range s.mode.w.toNat).map fun k =>
        (m (2 + s.mode.cpha.toNat + 2 * k)).toNat * 2 ^ (s.mode.w.toNat - 1 - k)).sum

/-- R190: in loopback, with no access failing, XFER x ends with the response (0, x) for every word in range and every
Mode, however long the waits take and whatever `io_fault_i` is outside the accesses (R64). That no access failed is said
by the end of the transfer: a failed one ends it with PortError (R215, R187). -/
def Obligations.LoopbackReturnsTheWord : Prop :=
  ∀ (d : DataWord) (s t u : State) (n : Nat), s.Inv → EndsIn d s t n u → s.env.wiring = .loopback →
    s.Unreset n → u.lasterr ≠ .portError →
    u.rxvalid = true ∧ u.rx = d ∧ u.rsp = some (0#3 ++ d) ∧ u.responses = s.responses ++ [0#3 ++ d]

/-! ## The observation buses -/

/-- R43 with R22, R25, R26, R28, R211, R226: every output of the block, with the numbers of PH and of the status codes.
`rsp_word` while `rsp_valid` = 0 has no value in the spec, and nothing is said of it (notes/assumptions/21.md). -/
def Obligations.BusesShowTheRegisters : Prop :=
  ∀ s : State,
    (s.statusO.getLsbD 0 = s.busy ∧ s.statusO.getLsbD 1 = s.mvalid ∧ s.statusO.getLsbD 2 = s.rxvalid ∧
      s.statusO.getLsbD 3 = s.seqvalid ∧
      s.statusO.extractLsb' 4 3 =
        (match s.lasterr with
        | .ok => 0#3
        | .invalidConfiguration => 1#3
        | .valueOutOfRange => 2#3
        | .portError => 3#3
        | .noMode => 4#3
        | .illegalCommand => 5#3)) ∧
    (s.posO.extractLsb' 0 7 = s.idx ∧
      s.posO.extractLsb' 7 3 =
        (match s.ph with
        | .idle => 0#3
        | .wrD => 1#3
        | .wrK => 2#3
        | .wrS => 3#3
        | .rd => 4#3
        | .wait => 5#3
        | .abort => 6#3)) ∧
    (s.modeO.extractLsb' 0 8 = s.mode.w ∧ s.modeO.getLsbD 8 = s.mode.cpha ∧ s.modeO.getLsbD 9 = s.mode.cpol) ∧
    (s.delayO = s.delayMs ∧ s.txO = s.tx ∧ s.rxO = s.rx) ∧
    (s.seqCsO = s.seq.cs ∧ s.seqCkO = s.seq.ck ∧ s.seqDoO = s.seq.dout ∧ s.seqTrO = s.seq.tr ∧
      s.seqLenO = s.seq.len) ∧
    (s.mosiO = s.outMosi ∧ s.sclkO = s.outSclk ∧ s.csnO = s.outCsn) ∧
    ((s.cmdReadyO = true ↔ s.busy = false) ∧ (s.waitReqO = true ↔ s.ph = .wait) ∧ s.waitMsO = s.delayMs) ∧
    (s.rspValidO = false ↔ s.rsp = none) ∧
    ∀ r, s.rsp = some r → s.rspValidO = true ∧ s.rspWordO = r
end

