-- ==== Sys2Proof/Laws/Decode.lean ====
section
/-! SUPPORT. Words as numbers: a field is a power of two times its value, and the word of each command is the sum of its
fields (spec/30_encoding.md R93 to R95). -/

namespace Sys2Proof

/-- A field that lies inside the word is its value times the weight of its lowest bit. -/
theorem fieldAt_toNat {n : Nat} (v : BitVec n) (lo : Nat) (h : n + lo ≤ 40) :
    (fieldAt v lo).toNat = v.toNat * 2 ^ lo := by
  have h1 : v.toNat * 2 ^ lo < 2 ^ 40 := by
    calc v.toNat * 2 ^ lo < 2 ^ n * 2 ^ lo := Nat.mul_lt_mul_of_pos_right v.isLt (by positivity)
      _ = 2 ^ (n + lo) := by rw [pow_add]
      _ ≤ 2 ^ 40 := Nat.pow_le_pow_right (by omega) h
  have h2 : v.toNat < 2 ^ 40 := lt_of_lt_of_le v.isLt (Nat.pow_le_pow_right (by omega) (by omega))
  simp only [fieldAt, BitVec.toNat_shiftLeft, BitVec.toNat_setWidth, Nat.shiftLeft_eq]
  rw [Nat.mod_eq_of_lt h2, Nat.mod_eq_of_lt h1]

/-- A field below everything set so far adds to the word. -/
theorem or_fieldAt_toNat {n : Nat} (x : CmdWord) (v : BitVec n) (lo : Nat) (h : n + lo ≤ 40) (k : Nat)
    (hx : x.toNat = k * 2 ^ (n + lo)) : (x ||| fieldAt v lo).toNat = x.toNat + v.toNat * 2 ^ lo := by
  rw [BitVec.toNat_or, fieldAt_toNat v lo h, hx]
  have : v.toNat * 2 ^ lo < 2 ^ (n + lo) := by
    rw [pow_add]; exact Nat.mul_lt_mul_of_pos_right v.isLt (by positivity)
  rw [Nat.mul_comm k, ← Nat.two_pow_add_eq_or_of_lt this]

theorem encode_mode_toNat (c p : Level) (w : BitVec 8) :
    (encode (.mode c p w)).toNat = 0x1000000000 + 512 * c.toNat + 256 * p.toNat + w.toNat := by
  unfold encode
  have e1 : (fieldAt 1#4 36).toNat = 0x1000000000 := by decide
  have e2 := or_fieldAt_toNat (fieldAt 1#4 36) (BitVec.ofBool c) 9 (by omega) (2 ^ 26) (by rw [e1]; norm_num)
  have e3 := or_fieldAt_toNat (fieldAt 1#4 36 ||| fieldAt (BitVec.ofBool c) 9) (BitVec.ofBool p) 8 (by omega)
    (2 ^ 27 + c.toNat) (by rw [e2, e1, BitVec.toNat_ofBool]; omega)
  have e4 := or_fieldAt_toNat
    (fieldAt 1#4 36 ||| fieldAt (BitVec.ofBool c) 9 ||| fieldAt (BitVec.ofBool p) 8) w 0 (by omega)
    (2 ^ 28 + 2 * c.toNat + p.toNat)
    (by rw [e3, e2, e1, BitVec.toNat_ofBool, BitVec.toNat_ofBool]; omega)
  rw [e4, e3, e2, e1, BitVec.toNat_ofBool, BitVec.toNat_ofBool]; omega

theorem encode_delay_toNat (ms : BitVec 16) : (encode (.delay ms)).toNat = 0x2000000000 + ms.toNat := by
  unfold encode
  have e1 : (fieldAt 2#4 36).toNat = 0x2000000000 := by decide
  rw [or_fieldAt_toNat (fieldAt 2#4 36) ms 0 (by omega) (2 ^ 21) (by rw [e1]; norm_num), e1]; omega

theorem encode_synth_toNat (d : DataWord) : (encode (.synth d)).toNat = 0x3000000000 + d.toNat := by
  unfold encode
  have e1 : (fieldAt 3#4 36).toNat = 0x3000000000 := by decide
  rw [or_fieldAt_toNat (fieldAt 3#4 36) d 0 (by omega) 48 (by rw [e1]; norm_num), e1]; omega

theorem encode_xfer_toNat (d : DataWord) : (encode (.xfer d)).toNat = 0x4000000000 + d.toNat := by
  unfold encode
  have e1 : (fieldAt 4#4 36).toNat = 0x4000000000 := by decide
  rw [or_fieldAt_toNat (fieldAt 4#4 36) d 0 (by omega) 64 (by rw [e1]; norm_num), e1]; omega

/-- A field read from a word, as a number. -/
theorem extractLsb'_eq_iff {w : CmdWord} {lo n v : Nat} :
    w.extractLsb' lo n = BitVec.ofNat n v ↔ w.toNat / 2 ^ lo % 2 ^ n = v % 2 ^ n := by
  rw [← BitVec.toNat_inj, BitVec.extractLsb'_toNat, BitVec.toNat_ofNat, Nat.shiftRight_eq_div_pow]

/-- A bit read from a word, as a number. -/
theorem getLsbD_toNat (w : CmdWord) (i : Nat) : (w.getLsbD i).toNat = w.toNat / 2 ^ i % 2 := by
  rw [← BitVec.testBit_toNat, Nat.toNat_testBit]

theorem bitOf_toNat {c : Nat} (h : c ≤ 1) : (bitOf c).toNat = c := by
  unfold bitOf; interval_cases c <;> rfl

end Sys2Proof
end

