-- ==== Sys2Proof/Laws/State.lean ====
section
/-! SUPPORT. One lemma per field per update of State: what each named update writes, and that it leaves the rest. -/

namespace Sys2Proof.Machine
@[simp] theorem State.tick_mode (s : State) : s.tick.mode = s.mode := rfl
@[simp] theorem State.tick_mvalid (s : State) : s.tick.mvalid = s.mvalid := rfl
@[simp] theorem State.tick_delayMs (s : State) : s.tick.delayMs = s.delayMs := rfl
@[simp] theorem State.tick_tx (s : State) : s.tick.tx = s.tx := rfl
@[simp] theorem State.tick_rx (s : State) : s.tick.rx = s.rx := rfl
@[simp] theorem State.tick_rxvalid (s : State) : s.tick.rxvalid = s.rxvalid := rfl
@[simp] theorem State.tick_seq (s : State) : s.tick.seq = s.seq := rfl
@[simp] theorem State.tick_seqvalid (s : State) : s.tick.seqvalid = s.seqvalid := rfl
@[simp] theorem State.tick_idx (s : State) : s.tick.idx = s.idx := rfl
@[simp] theorem State.tick_ph (s : State) : s.tick.ph = s.ph := rfl
@[simp] theorem State.tick_busy (s : State) : s.tick.busy = s.busy := rfl
@[simp] theorem State.tick_lasterr (s : State) : s.tick.lasterr = s.lasterr := rfl
@[simp] theorem State.tick_outMosi (s : State) : s.tick.outMosi = s.outMosi := rfl
@[simp] theorem State.tick_outSclk (s : State) : s.tick.outSclk = s.outSclk := rfl
@[simp] theorem State.tick_outCsn (s : State) : s.tick.outCsn = s.outCsn := rfl
@[simp] theorem State.tick_rsp (s : State) : s.tick.rsp = none := rfl
@[simp] theorem State.tick_env (s : State) : s.tick.env = s.env.tick := rfl
@[simp] theorem State.tick_events (s : State) : s.tick.events = s.events := rfl
@[simp] theorem State.tick_responses (s : State) : s.tick.responses = s.responses := rfl
@[simp] theorem State.presented_mode (s : State) (rest : List (Option CmdWord)) : (s.presented rest).mode = s.mode := rfl
@[simp] theorem State.presented_mvalid (s : State) (rest : List (Option CmdWord)) : (s.presented rest).mvalid = s.mvalid := rfl
@[simp] theorem State.presented_delayMs (s : State) (rest : List (Option CmdWord)) : (s.presented rest).delayMs = s.delayMs := rfl
@[simp] theorem State.presented_tx (s : State) (rest : List (Option CmdWord)) : (s.presented rest).tx = s.tx := rfl
@[simp] theorem State.presented_rx (s : State) (rest : List (Option CmdWord)) : (s.presented rest).rx = s.rx := rfl
@[simp] theorem State.presented_rxvalid (s : State) (rest : List (Option CmdWord)) : (s.presented rest).rxvalid = s.rxvalid := rfl
@[simp] theorem State.presented_seq (s : State) (rest : List (Option CmdWord)) : (s.presented rest).seq = s.seq := rfl
@[simp] theorem State.presented_seqvalid (s : State) (rest : List (Option CmdWord)) : (s.presented rest).seqvalid = s.seqvalid := rfl
@[simp] theorem State.presented_idx (s : State) (rest : List (Option CmdWord)) : (s.presented rest).idx = s.idx := rfl
@[simp] theorem State.presented_ph (s : State) (rest : List (Option CmdWord)) : (s.presented rest).ph = s.ph := rfl
@[simp] theorem State.presented_busy (s : State) (rest : List (Option CmdWord)) : (s.presented rest).busy = s.busy := rfl
@[simp] theorem State.presented_lasterr (s : State) (rest : List (Option CmdWord)) : (s.presented rest).lasterr = s.lasterr := rfl
@[simp] theorem State.presented_outMosi (s : State) (rest : List (Option CmdWord)) : (s.presented rest).outMosi = s.outMosi := rfl
@[simp] theorem State.presented_outSclk (s : State) (rest : List (Option CmdWord)) : (s.presented rest).outSclk = s.outSclk := rfl
@[simp] theorem State.presented_outCsn (s : State) (rest : List (Option CmdWord)) : (s.presented rest).outCsn = s.outCsn := rfl
@[simp] theorem State.presented_rsp (s : State) (rest : List (Option CmdWord)) : (s.presented rest).rsp = s.rsp := rfl
@[simp] theorem State.presented_env (s : State) (rest : List (Option CmdWord)) : (s.presented rest).env = { s.env with pending := rest } := rfl
@[simp] theorem State.presented_events (s : State) (rest : List (Option CmdWord)) : (s.presented rest).events = s.events := rfl
@[simp] theorem State.presented_responses (s : State) (rest : List (Option CmdWord)) : (s.presented rest).responses = s.responses := rfl
@[simp] theorem State.respond_mode (s : State) (st : Status) (d : DataWord) : (s.respond st d).mode = s.mode := rfl
@[simp] theorem State.respond_mvalid (s : State) (st : Status) (d : DataWord) : (s.respond st d).mvalid = s.mvalid := rfl
@[simp] theorem State.respond_delayMs (s : State) (st : Status) (d : DataWord) : (s.respond st d).delayMs = s.delayMs := rfl
@[simp] theorem State.respond_tx (s : State) (st : Status) (d : DataWord) : (s.respond st d).tx = s.tx := rfl
@[simp] theorem State.respond_rx (s : State) (st : Status) (d : DataWord) : (s.respond st d).rx = s.rx := rfl
@[simp] theorem State.respond_rxvalid (s : State) (st : Status) (d : DataWord) : (s.respond st d).rxvalid = s.rxvalid := rfl
@[simp] theorem State.respond_seq (s : State) (st : Status) (d : DataWord) : (s.respond st d).seq = s.seq := rfl
@[simp] theorem State.respond_seqvalid (s : State) (st : Status) (d : DataWord) : (s.respond st d).seqvalid = s.seqvalid := rfl
@[simp] theorem State.respond_idx (s : State) (st : Status) (d : DataWord) : (s.respond st d).idx = s.idx := rfl
@[simp] theorem State.respond_ph (s : State) (st : Status) (d : DataWord) : (s.respond st d).ph = s.ph := rfl
@[simp] theorem State.respond_busy (s : State) (st : Status) (d : DataWord) : (s.respond st d).busy = s.busy := rfl
@[simp] theorem State.respond_lasterr (s : State) (st : Status) (d : DataWord) : (s.respond st d).lasterr = s.lasterr := rfl
@[simp] theorem State.respond_outMosi (s : State) (st : Status) (d : DataWord) : (s.respond st d).outMosi = s.outMosi := rfl
@[simp] theorem State.respond_outSclk (s : State) (st : Status) (d : DataWord) : (s.respond st d).outSclk = s.outSclk := rfl
@[simp] theorem State.respond_outCsn (s : State) (st : Status) (d : DataWord) : (s.respond st d).outCsn = s.outCsn := rfl
@[simp] theorem State.respond_rsp (s : State) (st : Status) (d : DataWord) : (s.respond st d).rsp = some (rspWord st d) := rfl
@[simp] theorem State.respond_env (s : State) (st : Status) (d : DataWord) : (s.respond st d).env = s.env := rfl
@[simp] theorem State.respond_events (s : State) (st : Status) (d : DataWord) : (s.respond st d).events = s.events := rfl
@[simp] theorem State.respond_responses (s : State) (st : Status) (d : DataWord) : (s.respond st d).responses = s.responses ++ [rspWord st d] := rfl
@[simp] theorem State.finish_mode (s : State) (st : Status) (d : DataWord) : (s.finish st d).mode = s.mode := rfl
@[simp] theorem State.finish_mvalid (s : State) (st : Status) (d : DataWord) : (s.finish st d).mvalid = s.mvalid := rfl
@[simp] theorem State.finish_delayMs (s : State) (st : Status) (d : DataWord) : (s.finish st d).delayMs = s.delayMs := rfl
@[simp] theorem State.finish_tx (s : State) (st : Status) (d : DataWord) : (s.finish st d).tx = s.tx := rfl
@[simp] theorem State.finish_rx (s : State) (st : Status) (d : DataWord) : (s.finish st d).rx = s.rx := rfl
@[simp] theorem State.finish_rxvalid (s : State) (st : Status) (d : DataWord) : (s.finish st d).rxvalid = s.rxvalid := rfl
@[simp] theorem State.finish_seq (s : State) (st : Status) (d : DataWord) : (s.finish st d).seq = s.seq := rfl
@[simp] theorem State.finish_seqvalid (s : State) (st : Status) (d : DataWord) : (s.finish st d).seqvalid = s.seqvalid := rfl
@[simp] theorem State.finish_idx (s : State) (st : Status) (d : DataWord) : (s.finish st d).idx = s.idx := rfl
@[simp] theorem State.finish_ph (s : State) (st : Status) (d : DataWord) : (s.finish st d).ph = s.ph := rfl
@[simp] theorem State.finish_busy (s : State) (st : Status) (d : DataWord) : (s.finish st d).busy = s.busy := rfl
@[simp] theorem State.finish_lasterr (s : State) (st : Status) (d : DataWord) : (s.finish st d).lasterr = st := rfl
@[simp] theorem State.finish_outMosi (s : State) (st : Status) (d : DataWord) : (s.finish st d).outMosi = s.outMosi := rfl
@[simp] theorem State.finish_outSclk (s : State) (st : Status) (d : DataWord) : (s.finish st d).outSclk = s.outSclk := rfl
@[simp] theorem State.finish_outCsn (s : State) (st : Status) (d : DataWord) : (s.finish st d).outCsn = s.outCsn := rfl
@[simp] theorem State.finish_rsp (s : State) (st : Status) (d : DataWord) : (s.finish st d).rsp = some (rspWord st d) := rfl
@[simp] theorem State.finish_env (s : State) (st : Status) (d : DataWord) : (s.finish st d).env = s.env := rfl
@[simp] theorem State.finish_events (s : State) (st : Status) (d : DataWord) : (s.finish st d).events = s.events := rfl
@[simp] theorem State.finish_responses (s : State) (st : Status) (d : DataWord) : (s.finish st d).responses = s.responses ++ [rspWord st d] := rfl
@[simp] theorem State.raise_mode (s : State) (e : Status) : (s.raise e).mode = s.mode := rfl
@[simp] theorem State.raise_mvalid (s : State) (e : Status) : (s.raise e).mvalid = s.mvalid := rfl
@[simp] theorem State.raise_delayMs (s : State) (e : Status) : (s.raise e).delayMs = s.delayMs := rfl
@[simp] theorem State.raise_tx (s : State) (e : Status) : (s.raise e).tx = s.tx := rfl
@[simp] theorem State.raise_rx (s : State) (e : Status) : (s.raise e).rx = s.rx := rfl
@[simp] theorem State.raise_rxvalid (s : State) (e : Status) : (s.raise e).rxvalid = s.rxvalid := rfl
@[simp] theorem State.raise_seq (s : State) (e : Status) : (s.raise e).seq = s.seq := rfl
@[simp] theorem State.raise_seqvalid (s : State) (e : Status) : (s.raise e).seqvalid = s.seqvalid := rfl
@[simp] theorem State.raise_idx (s : State) (e : Status) : (s.raise e).idx = s.idx := rfl
@[simp] theorem State.raise_ph (s : State) (e : Status) : (s.raise e).ph = s.ph := rfl
@[simp] theorem State.raise_busy (s : State) (e : Status) : (s.raise e).busy = s.busy := rfl
@[simp] theorem State.raise_lasterr (s : State) (e : Status) : (s.raise e).lasterr = e := rfl
@[simp] theorem State.raise_outMosi (s : State) (e : Status) : (s.raise e).outMosi = s.outMosi := rfl
@[simp] theorem State.raise_outSclk (s : State) (e : Status) : (s.raise e).outSclk = s.outSclk := rfl
@[simp] theorem State.raise_outCsn (s : State) (e : Status) : (s.raise e).outCsn = s.outCsn := rfl
@[simp] theorem State.raise_rsp (s : State) (e : Status) : (s.raise e).rsp = some (rspWord e 0#32) := rfl
@[simp] theorem State.raise_env (s : State) (e : Status) : (s.raise e).env = s.env := rfl
@[simp] theorem State.raise_events (s : State) (e : Status) : (s.raise e).events = s.events := rfl
@[simp] theorem State.raise_responses (s : State) (e : Status) : (s.raise e).responses = s.responses ++ [rspWord e 0#32] := rfl
@[simp] theorem State.record_mode (s : State) (e : Event) : (s.record e).mode = s.mode := rfl
@[simp] theorem State.record_mvalid (s : State) (e : Event) : (s.record e).mvalid = s.mvalid := rfl
@[simp] theorem State.record_delayMs (s : State) (e : Event) : (s.record e).delayMs = s.delayMs := rfl
@[simp] theorem State.record_tx (s : State) (e : Event) : (s.record e).tx = s.tx := rfl
@[simp] theorem State.record_rx (s : State) (e : Event) : (s.record e).rx = s.rx := rfl
@[simp] theorem State.record_rxvalid (s : State) (e : Event) : (s.record e).rxvalid = s.rxvalid := rfl
@[simp] theorem State.record_seq (s : State) (e : Event) : (s.record e).seq = s.seq := rfl
@[simp] theorem State.record_seqvalid (s : State) (e : Event) : (s.record e).seqvalid = s.seqvalid := rfl
@[simp] theorem State.record_idx (s : State) (e : Event) : (s.record e).idx = s.idx := rfl
@[simp] theorem State.record_ph (s : State) (e : Event) : (s.record e).ph = s.ph := rfl
@[simp] theorem State.record_busy (s : State) (e : Event) : (s.record e).busy = s.busy := rfl
@[simp] theorem State.record_lasterr (s : State) (e : Event) : (s.record e).lasterr = s.lasterr := rfl
@[simp] theorem State.record_outMosi (s : State) (e : Event) : (s.record e).outMosi = s.outMosi := rfl
@[simp] theorem State.record_outSclk (s : State) (e : Event) : (s.record e).outSclk = s.outSclk := rfl
@[simp] theorem State.record_outCsn (s : State) (e : Event) : (s.record e).outCsn = s.outCsn := rfl
@[simp] theorem State.record_rsp (s : State) (e : Event) : (s.record e).rsp = s.rsp := rfl
@[simp] theorem State.record_env (s : State) (e : Event) : (s.record e).env = s.env := rfl
@[simp] theorem State.record_events (s : State) (e : Event) : (s.record e).events = s.events ++ [e] := rfl
@[simp] theorem State.record_responses (s : State) (e : Event) : (s.record e).responses = s.responses := rfl
@[simp] theorem State.loadWord_mode (s : State) (d : DataWord) : (s.loadWord d).mode = s.mode := rfl
@[simp] theorem State.loadWord_mvalid (s : State) (d : DataWord) : (s.loadWord d).mvalid = s.mvalid := rfl
@[simp] theorem State.loadWord_delayMs (s : State) (d : DataWord) : (s.loadWord d).delayMs = s.delayMs := rfl
@[simp] theorem State.loadWord_tx (s : State) (d : DataWord) : (s.loadWord d).tx = d := rfl
@[simp] theorem State.loadWord_rx (s : State) (d : DataWord) : (s.loadWord d).rx = s.rx := rfl
@[simp] theorem State.loadWord_rxvalid (s : State) (d : DataWord) : (s.loadWord d).rxvalid = s.rxvalid := rfl
@[simp] theorem State.loadWord_seq (s : State) (d : DataWord) : (s.loadWord d).seq = synthesize d s.mode := rfl
@[simp] theorem State.loadWord_seqvalid (s : State) (d : DataWord) : (s.loadWord d).seqvalid = true := rfl
@[simp] theorem State.loadWord_idx (s : State) (d : DataWord) : (s.loadWord d).idx = s.idx := rfl
@[simp] theorem State.loadWord_ph (s : State) (d : DataWord) : (s.loadWord d).ph = s.ph := rfl
@[simp] theorem State.loadWord_busy (s : State) (d : DataWord) : (s.loadWord d).busy = s.busy := rfl
@[simp] theorem State.loadWord_lasterr (s : State) (d : DataWord) : (s.loadWord d).lasterr = s.lasterr := rfl
@[simp] theorem State.loadWord_outMosi (s : State) (d : DataWord) : (s.loadWord d).outMosi = s.outMosi := rfl
@[simp] theorem State.loadWord_outSclk (s : State) (d : DataWord) : (s.loadWord d).outSclk = s.outSclk := rfl
@[simp] theorem State.loadWord_outCsn (s : State) (d : DataWord) : (s.loadWord d).outCsn = s.outCsn := rfl
@[simp] theorem State.loadWord_rsp (s : State) (d : DataWord) : (s.loadWord d).rsp = s.rsp := rfl
@[simp] theorem State.loadWord_env (s : State) (d : DataWord) : (s.loadWord d).env = s.env := rfl
@[simp] theorem State.loadWord_events (s : State) (d : DataWord) : (s.loadWord d).events = s.events := rfl
@[simp] theorem State.loadWord_responses (s : State) (d : DataWord) : (s.loadWord d).responses = s.responses := rfl
@[simp] theorem State.sample_mode (s : State) (v : Level) : (s.sample v).mode = s.mode := rfl
@[simp] theorem State.sample_mvalid (s : State) (v : Level) : (s.sample v).mvalid = s.mvalid := rfl
@[simp] theorem State.sample_delayMs (s : State) (v : Level) : (s.sample v).delayMs = s.delayMs := rfl
@[simp] theorem State.sample_tx (s : State) (v : Level) : (s.sample v).tx = s.tx := rfl
@[simp] theorem State.sample_rx (s : State) (v : Level) : (s.sample v).rx = s.rx <<< 1 ||| BitVec.setWidth 32 (BitVec.ofBool v) := rfl
@[simp] theorem State.sample_rxvalid (s : State) (v : Level) : (s.sample v).rxvalid = s.rxvalid := rfl
@[simp] theorem State.sample_seq (s : State) (v : Level) : (s.sample v).seq = s.seq := rfl
@[simp] theorem State.sample_seqvalid (s : State) (v : Level) : (s.sample v).seqvalid = s.seqvalid := rfl
@[simp] theorem State.sample_idx (s : State) (v : Level) : (s.sample v).idx = s.idx := rfl
@[simp] theorem State.sample_ph (s : State) (v : Level) : (s.sample v).ph = s.ph := rfl
@[simp] theorem State.sample_busy (s : State) (v : Level) : (s.sample v).busy = s.busy := rfl
@[simp] theorem State.sample_lasterr (s : State) (v : Level) : (s.sample v).lasterr = s.lasterr := rfl
@[simp] theorem State.sample_outMosi (s : State) (v : Level) : (s.sample v).outMosi = s.outMosi := rfl
@[simp] theorem State.sample_outSclk (s : State) (v : Level) : (s.sample v).outSclk = s.outSclk := rfl
@[simp] theorem State.sample_outCsn (s : State) (v : Level) : (s.sample v).outCsn = s.outCsn := rfl
@[simp] theorem State.sample_rsp (s : State) (v : Level) : (s.sample v).rsp = s.rsp := rfl
@[simp] theorem State.sample_env (s : State) (v : Level) : (s.sample v).env = s.env := rfl
@[simp] theorem State.sample_events (s : State) (v : Level) : (s.sample v).events = s.events := rfl
@[simp] theorem State.sample_responses (s : State) (v : Level) : (s.sample v).responses = s.responses := rfl
@[simp] theorem State.setOut_mosi_outMosi (s : State) (v : Level) : (s.setOut .mosi v).outMosi = v := rfl
@[simp] theorem State.setOut_mosi_outSclk (s : State) (v : Level) : (s.setOut .mosi v).outSclk = s.outSclk := rfl
@[simp] theorem State.setOut_mosi_outCsn (s : State) (v : Level) : (s.setOut .mosi v).outCsn = s.outCsn := rfl
@[simp] theorem State.setOut_sclk_outMosi (s : State) (v : Level) : (s.setOut .sclk v).outMosi = s.outMosi := rfl
@[simp] theorem State.setOut_sclk_outSclk (s : State) (v : Level) : (s.setOut .sclk v).outSclk = v := rfl
@[simp] theorem State.setOut_sclk_outCsn (s : State) (v : Level) : (s.setOut .sclk v).outCsn = s.outCsn := rfl
@[simp] theorem State.setOut_csn_outMosi (s : State) (v : Level) : (s.setOut .csn v).outMosi = s.outMosi := rfl
@[simp] theorem State.setOut_csn_outSclk (s : State) (v : Level) : (s.setOut .csn v).outSclk = s.outSclk := rfl
@[simp] theorem State.setOut_csn_outCsn (s : State) (v : Level) : (s.setOut .csn v).outCsn = v := rfl
@[simp] theorem State.setOut_mode (s : State) (l : OutLine) (v : Level) : (s.setOut l v).mode = s.mode := by
  cases l <;> rfl
@[simp] theorem State.setOut_mvalid (s : State) (l : OutLine) (v : Level) : (s.setOut l v).mvalid = s.mvalid := by
  cases l <;> rfl
@[simp] theorem State.setOut_delayMs (s : State) (l : OutLine) (v : Level) : (s.setOut l v).delayMs = s.delayMs := by
  cases l <;> rfl
@[simp] theorem State.setOut_tx (s : State) (l : OutLine) (v : Level) : (s.setOut l v).tx = s.tx := by
  cases l <;> rfl
@[simp] theorem State.setOut_rx (s : State) (l : OutLine) (v : Level) : (s.setOut l v).rx = s.rx := by
  cases l <;> rfl
@[simp] theorem State.setOut_rxvalid (s : State) (l : OutLine) (v : Level) : (s.setOut l v).rxvalid = s.rxvalid := by
  cases l <;> rfl
@[simp] theorem State.setOut_seq (s : State) (l : OutLine) (v : Level) : (s.setOut l v).seq = s.seq := by
  cases l <;> rfl
@[simp] theorem State.setOut_seqvalid (s : State) (l : OutLine) (v : Level) : (s.setOut l v).seqvalid = s.seqvalid := by
  cases l <;> rfl
@[simp] theorem State.setOut_idx (s : State) (l : OutLine) (v : Level) : (s.setOut l v).idx = s.idx := by
  cases l <;> rfl
@[simp] theorem State.setOut_ph (s : State) (l : OutLine) (v : Level) : (s.setOut l v).ph = s.ph := by
  cases l <;> rfl
@[simp] theorem State.setOut_busy (s : State) (l : OutLine) (v : Level) : (s.setOut l v).busy = s.busy := by
  cases l <;> rfl
@[simp] theorem State.setOut_lasterr (s : State) (l : OutLine) (v : Level) : (s.setOut l v).lasterr = s.lasterr := by
  cases l <;> rfl
@[simp] theorem State.setOut_rsp (s : State) (l : OutLine) (v : Level) : (s.setOut l v).rsp = s.rsp := by
  cases l <;> rfl
@[simp] theorem State.setOut_env (s : State) (l : OutLine) (v : Level) : (s.setOut l v).env = s.env := by
  cases l <;> rfl
@[simp] theorem State.setOut_events (s : State) (l : OutLine) (v : Level) : (s.setOut l v).events = s.events := by
  cases l <;> rfl
@[simp] theorem State.setOut_responses (s : State) (l : OutLine) (v : Level) : (s.setOut l v).responses = s.responses := by
  cases l <;> rfl
@[simp] theorem State.takeLevel_mode (s : State) (v : Level) : (s.takeLevel v).mode = s.mode := by
  unfold State.takeLevel; split <;> rfl
@[simp] theorem State.takeLevel_mvalid (s : State) (v : Level) : (s.takeLevel v).mvalid = s.mvalid := by
  unfold State.takeLevel; split <;> rfl
@[simp] theorem State.takeLevel_delayMs (s : State) (v : Level) : (s.takeLevel v).delayMs = s.delayMs := by
  unfold State.takeLevel; split <;> rfl
@[simp] theorem State.takeLevel_tx (s : State) (v : Level) : (s.takeLevel v).tx = s.tx := by
  unfold State.takeLevel; split <;> rfl
@[simp] theorem State.takeLevel_rxvalid (s : State) (v : Level) : (s.takeLevel v).rxvalid = s.rxvalid := by
  unfold State.takeLevel; split <;> rfl
@[simp] theorem State.takeLevel_seq (s : State) (v : Level) : (s.takeLevel v).seq = s.seq := by
  unfold State.takeLevel; split <;> rfl
@[simp] theorem State.takeLevel_seqvalid (s : State) (v : Level) : (s.takeLevel v).seqvalid = s.seqvalid := by
  unfold State.takeLevel; split <;> rfl
@[simp] theorem State.takeLevel_idx (s : State) (v : Level) : (s.takeLevel v).idx = s.idx := by
  unfold State.takeLevel; split <;> rfl
@[simp] theorem State.takeLevel_ph (s : State) (v : Level) : (s.takeLevel v).ph = s.ph := by
  unfold State.takeLevel; split <;> rfl
@[simp] theorem State.takeLevel_busy (s : State) (v : Level) : (s.takeLevel v).busy = s.busy := by
  unfold State.takeLevel; split <;> rfl
@[simp] theorem State.takeLevel_lasterr (s : State) (v : Level) : (s.takeLevel v).lasterr = s.lasterr := by
  unfold State.takeLevel; split <;> rfl
@[simp] theorem State.takeLevel_outMosi (s : State) (v : Level) : (s.takeLevel v).outMosi = s.outMosi := by
  unfold State.takeLevel; split <;> rfl
@[simp] theorem State.takeLevel_outSclk (s : State) (v : Level) : (s.takeLevel v).outSclk = s.outSclk := by
  unfold State.takeLevel; split <;> rfl
@[simp] theorem State.takeLevel_outCsn (s : State) (v : Level) : (s.takeLevel v).outCsn = s.outCsn := by
  unfold State.takeLevel; split <;> rfl
@[simp] theorem State.takeLevel_rsp (s : State) (v : Level) : (s.takeLevel v).rsp = s.rsp := by
  unfold State.takeLevel; split <;> rfl
@[simp] theorem State.takeLevel_env (s : State) (v : Level) : (s.takeLevel v).env = s.env := by
  unfold State.takeLevel; split <;> rfl
@[simp] theorem State.takeLevel_events (s : State) (v : Level) : (s.takeLevel v).events = s.events := by
  unfold State.takeLevel; split <;> rfl
@[simp] theorem State.takeLevel_responses (s : State) (v : Level) : (s.takeLevel v).responses = s.responses := by
  unfold State.takeLevel; split <;> rfl

theorem State.takeLevel_rx (s : State) (v : Level) : (s.takeLevel v).rx =
    if s.elem s.seq.tr then s.rx <<< 1 ||| BitVec.setWidth 32 (BitVec.ofBool v) else s.rx := by
  unfold State.takeLevel; split <;> rfl
@[simp] theorem State.out_setOut_same (s : State) (l : OutLine) (v : Level) : (s.setOut l v).out l = v := by
  cases l <;> rfl

theorem State.out_setOut_other (s : State) (l l' : OutLine) (v : Level) (h : l' ≠ l) :
    (s.setOut l v).out l' = s.out l' := by
  cases l <;> cases l' <;> first | rfl | exact absurd rfl h

end Sys2Proof.Machine
end

