-- ==== Sys2Proof/Laws/Ops.lean ====
section
/-! SUPPORT. One lemma per shared operation: the inputs of a step, PinWrite, PinRead, the acceptance rule, the operand
checks, advance. -/

namespace Sys2Proof.Machine

/-! The inputs: a tick shifts the view of the script by one step. -/

@[simp] theorem Env.tick_rstAt (e : Env) (k : Nat) : e.tick.rstAt k = e.rstAt (k + 1) := by
  cases h : e.rst <;> simp [Env.rstAt, Env.tick, h]

@[simp] theorem Env.tick_pinsAt (e : Env) (k : Nat) : e.tick.pinsAt k = e.pinsAt (k + 1) := by
  cases h : e.pins <;> simp [Env.pinsAt, Env.tick, h, Nat.add_comm, Nat.add_left_comm]

@[simp] theorem Env.tick_wiring (e : Env) : e.tick.wiring = e.wiring := rfl

@[simp] theorem Env.tick_pending (e : Env) : e.tick.pending = e.pending := rfl

/-- PinWrite answers `ok` and updates the one register, or `fail` and updates none; either way it records one event. -/
theorem State.pinWrite_cases (s : State) (p : Pins) (l : OutLine) (v : Level) :
    (p.ioFault = false ∧ s.pinWrite p l v = ((s.setOut l v).record (.write l v true), true)) ∨
    (p.ioFault = true ∧ s.pinWrite p l v = (s.record (.write l v false), false)) := by
  cases h : p.ioFault <;> simp [State.pinWrite, h]

/-- PinRead answers the level on `miso_i`, or `fail`; it changes nothing but the history. -/
theorem State.pinRead_cases (s : State) (p : Pins) :
    (p.ioFault = false ∧ s.pinRead p = (s.record (.read (some (s.misoLevel p))), some (s.misoLevel p))) ∨
    (p.ioFault = true ∧ s.pinRead p = (s.record (.read none), none)) := by
  cases h : p.ioFault <;> simp [State.pinRead, h]

/-- A write micro-step goes on to the next phase with the register written, or to ABORT with none written. -/
theorem State.writeStep_cases (s : State) (p : Pins) (l : OutLine) (v : Level) (ph : Phase) :
    (p.ioFault = false ∧ s.writeStep p l v ph = { (s.setOut l v).record (.write l v true) with ph := ph }) ∨
    (p.ioFault = true ∧ s.writeStep p l v ph = { s.record (.write l v false) with ph := .abort }) := by
  cases h : p.ioFault <;> simp [State.writeStep, State.pinWrite, h]

theorem State.whenReady_busy {s : State} (f : State → State) (h : s.busy = true) : s.whenReady f = s := by
  simp [State.whenReady, h]

theorem State.whenReady_ready {s : State} (f : State → State) (h : s.busy = false) : s.whenReady f = f s := by
  simp [State.whenReady, h]

/-- The checks of SYNTH and XFER: no Mode, a word out of range, or both pass. -/
theorem State.wordError_cases (s : State) (d : DataWord) :
    (s.mvalid = false ∧ s.wordError d = some .noMode) ∨
    (s.mvalid = true ∧ 2 ^ s.mode.w.toNat ≤ d.toNat ∧ s.wordError d = some .valueOutOfRange) ∨
    (s.mvalid = true ∧ d.toNat < 2 ^ s.mode.w.toNat ∧ s.wordError d = none) := by
  cases hm : s.mvalid
  · simp [State.wordError, hm]
  · by_cases hd : d.toNat < 2 ^ s.mode.w.toNat
    · simp [State.wordError, dataInRange, hm, hd]
    · simp [State.wordError, dataInRange, hm, hd, Nat.le_of_not_lt hd]

/-- `advance()` completes at the last index, and else moves to the next one. -/
theorem State.advance_cases (s : State) :
    (s.idx = s.seq.len - 1#7 ∧ s.advance = s.complete) ∨
    (s.idx ≠ s.seq.len - 1#7 ∧ s.advance = { s with idx := s.idx + 1#7, ph := .wrD }) := by
  by_cases h : s.idx = s.seq.len - 1#7 <;> simp [State.advance, h]

theorem State.advance_last {s : State} (h : s.idx = s.seq.len - 1#7) : s.advance = s.complete := by
  simp [State.advance, h]

theorem State.advance_next {s : State} (h : s.idx ≠ s.seq.len - 1#7) :
    s.advance = { s with idx := s.idx + 1#7, ph := .wrD } := by
  simp [State.advance, h]

/-- After the read of an index the engine waits when a delay is configured, and else advances. -/
theorem State.waitOrAdvance_cases (s : State) :
    (s.delayMs = 0#16 ∧ s.waitOrAdvance = s.advance) ∨
    (s.delayMs ≠ 0#16 ∧ s.waitOrAdvance = { s with ph := .wait }) := by
  by_cases h : s.delayMs = 0#16 <;> simp [State.waitOrAdvance, h]

/-- The status field of a response word is the code of its status (R100, R211). -/
theorem rspWord_status (st : Status) (d : DataWord) : (rspWord st d).extractLsb' 32 3 = st.code := by
  apply BitVec.eq_of_toNat_eq
  rw [BitVec.extractLsb'_toNat, Nat.shiftRight_eq_div_pow]
  have h : (rspWord st d).toNat = st.code.toNat * 2 ^ 32 + d.toNat := by
    rw [show rspWord st d = (st.code ++ d : BitVec (3 + 32)) from rfl, BitVec.toNat_append, Nat.shiftLeft_eq,
      Nat.mul_comm, Nat.two_pow_add_eq_or_of_lt d.isLt]
  have := d.isLt
  have := st.code.isLt
  omega

theorem widthLegal_iff (w : BitVec 8) : widthLegal w = true ↔ 1 ≤ w.toNat ∧ w.toNat ≤ 32 := by
  unfold widthLegal
  rw [Bool.and_eq_true, decide_eq_true_eq, decide_eq_true_eq]
  rfl

end Sys2Proof.Machine
end

