-- ==== Sys2Proof/Laws/PerInstr.lean ====
section
/-! SUPPORT. One lemma per constructor of Instr, about the instruction as syntax: its word lies in its own row of
spec/opcode_table.json, and it is well formed. -/

namespace Sys2Proof.Laws

theorem mode_fixed (cpol cpha : Level) (w : BitVec 8) :
    encode (.mode cpol cpha w) &&& 0xFFFFFFFC00#40 = 0x1000000000#40 := by
  ext i hi
  have : i < 40 := hi
  interval_cases i <;> simp [encode, fieldAt]

theorem delay_fixed (ms : BitVec 16) : encode (.delay ms) &&& 0xFFFFFF0000#40 = 0x2000000000#40 := by
  ext i hi
  have : i < 40 := hi
  interval_cases i <;> simp [encode, fieldAt]

theorem synth_fixed (d : DataWord) : encode (.synth d) &&& 0xFF00000000#40 = 0x3000000000#40 := by
  ext i hi
  have : i < 40 := hi
  interval_cases i <;> simp [encode, fieldAt]

theorem xfer_fixed (d : DataWord) : encode (.xfer d) &&& 0xFF00000000#40 = 0x4000000000#40 := by
  ext i hi
  have : i < 40 := hi
  interval_cases i <;> simp [encode, fieldAt]

end Sys2Proof.Laws

namespace Sys2Proof.Laws.TableRow

/-- The word of `i` carries its row's fixed bits, and the line it is written as is well formed (R93 to R95, R104). -/
def Statement (i : Instr) : Prop := encode i &&& i.tableMask = i.tableMatch ∧ i.wellFormed = true

theorem mode (cpol cpha : Level) (w : BitVec 8) : Statement (.mode cpol cpha w) := by
  constructor
  · exact mode_fixed cpol cpha w
  · have := w.isLt
    cases cpol <;> cases cpha <;>
      simp [Instr.wellFormed, Instr.asm, AsmLine.wellFormed, bitOk, widthOk] <;> omega

theorem delay (ms : BitVec 16) : Statement (.delay ms) := by
  constructor
  · exact delay_fixed ms
  · have := ms.isLt
    simp [Instr.wellFormed, Instr.asm, AsmLine.wellFormed, msOk]; omega

theorem synth (d : DataWord) : Statement (.synth d) := by
  constructor
  · exact synth_fixed d
  · have := d.isLt
    simp [Instr.wellFormed, Instr.asm, AsmLine.wellFormed, dataOk]; omega

theorem xfer (d : DataWord) : Statement (.xfer d) := by
  constructor
  · exact xfer_fixed d
  · have := d.isLt
    simp [Instr.wellFormed, Instr.asm, AsmLine.wellFormed, dataOk]; omega

end Sys2Proof.Laws.TableRow
end

