-- ==== Sys2Proof/Laws/Signals.lean ====
section
/-! SUPPORT. The response port as a view of the response pulse (spec/10_state.md R43, spec/30_encoding.md R100). -/

namespace Sys2Proof.Machine

/-- While a response is on the port, `rsp_word` is it. -/
theorem State.rspWordO_of_some {s : State} {r : RspWord} (h : s.rsp = some r) : s.rspWordO = r := by
  simp [State.rspWordO, h]

@[simp] theorem State.respond_rspWordO (s : State) (st : Status) (d : DataWord) :
    (s.respond st d).rspWordO = rspWord st d := rfl

@[simp] theorem State.tick_rspValidO (s : State) : s.tick.rspValidO = false := rfl

end Sys2Proof.Machine
end

