-- ==== Sys2Proof/Laws/Step.lean ====
section
/-! SUPPORT. What one step can do, said once. -/

namespace Sys2Proof.Machine

/-- The accepting step of a command with BUSY = 0, as a function on states. -/
def acceptStep (i : Instr) (s : State) : State :=
  match i with
  | .mode cpol cpha w => s.modeStep cpol cpha w
  | .delay ms => s.delayStep ms
  | .synth d => s.synthStep d
  | .xfer d => s.xferStep d

/-- Every command answers a next state: the state as it was while BUSY = 1, its accepting step while BUSY = 0. -/
theorem exec_eq (i : Instr) (s : State) : exec i s = .next (if s.busy then s else acceptStep i s) := by
  cases i <;> rfl

theorem exec_ready (i : Instr) {s : State} (h : s.busy = false) : exec i s = .next (acceptStep i s) := by
  rw [exec_eq, h]; rfl

/-- The checks of SYNTH and XFER pass with a Mode and a word in range. -/
theorem wordError_none {s : State} {d : DataWord} (hm : s.mvalid = true) (hd : d.toNat < 2 ^ s.mode.w.toNat) :
    s.wordError d = none := by
  rcases State.wordError_cases s d with ⟨h, _⟩ | ⟨_, h, _⟩ | ⟨_, _, h⟩
  · exact absurd (hm.symm.trans h) (by decide)
  · omega
  · exact h

/-- With `rst` = 0 and PH not IDLE a step is the micro-step PH enables. -/
theorem step_micro {s : State} (hr : s.env.rstAt 0 = false) (hp : s.ph ≠ .idle) :
    step s = .next (microStep s.env.now s.tick) := by
  unfold step cycle
  rw [hr]
  cases h : s.ph <;> first | exact absurd h hp | rfl

/-- A step is a reset, a micro-step, the acceptance of a command, the answer to an illegal word, or an idle step, with or
without a pause of the host's. -/
theorem step_cases {s t : State} (h : step s = .next t) :
    (s.env.rstAt 0 = true ∧ t = s.hardReset) ∨
    (s.env.rstAt 0 = false ∧ s.ph ≠ .idle ∧ t = microStep s.env.now s.tick) ∨
    (s.env.rstAt 0 = false ∧ s.ph = .idle ∧ s.busy = false ∧ ∃ w rest i,
      s.env.pending = some w :: rest ∧ decode w = .ok i ∧ t = acceptStep i (s.tick.presented rest)) ∨
    (s.env.rstAt 0 = false ∧ s.ph = .idle ∧ s.busy = false ∧ ∃ w rest e,
      s.env.pending = some w :: rest ∧ decode w = .error e ∧ t = (s.tick.presented rest).raise .illegalCommand) ∨
    (s.env.rstAt 0 = false ∧ s.ph = .idle ∧ s.busy = false ∧ ∃ rest,
      s.env.pending = none :: rest ∧ t = s.tick.presented rest) ∨
    (s.env.rstAt 0 = false ∧ s.ph = .idle ∧ (s.busy = true ∨ s.env.pending = []) ∧ t = s.tick) := by
  unfold step cycle at h
  split at h
  · exact .inl ⟨by assumption, by simpa using h.symm⟩
  · rename_i hr
    have hr : s.env.rstAt 0 = false := eq_false_of_ne_true hr
    split at h
    · have hp : s.ph = .idle := by assumption
      unfold idleStep at h
      split at h
      · rename_i w rest hb hw
        unfold acceptWord at h
        split at h
        · rename_i i hi
          have hb' : (s.tick.presented rest).busy = false := by simpa using hb
          rw [exec_eq, hb'] at h
          exact .inr (.inr (.inl ⟨hr, hp, hb, w, rest, i, hw, hi, by simpa using h.symm⟩))
        · rename_i e he
          rw [State.whenReady_ready _ (by simpa using hb)] at h
          exact .inr (.inr (.inr (.inl ⟨hr, hp, hb, w, rest, e, hw, he, by simpa using h.symm⟩)))
      · rename_i rest hb hw
        exact .inr (.inr (.inr (.inr (.inl ⟨hr, hp, hb, rest, hw, by simpa using h.symm⟩))))
      · rename_i hne hnp
        refine .inr (.inr (.inr (.inr (.inr ⟨hr, hp, ?_, by simpa using h.symm⟩))))
        cases hb : s.busy
        · right
          cases hq : s.env.pending with
          | nil => rfl
          | cons o rest =>
            cases o with
            | none => exact absurd hq (hnp rest hb)
            | some w => exact absurd hq (hne w rest hb)
        · exact .inl rfl
    · exact .inr (.inl ⟨hr, by assumption, by simpa using h.symm⟩)

end Sys2Proof.Machine
end

