-- ==== Sys2Proof/Laws/Synth.lean ====
section
/-! SUPPORT. The sequence registers hold the sequence functions (spec/10_state.md R36). -/

namespace Sys2Proof.Machine

/-- Bit i of the image of n elements is element i, and 0 from n up. -/
theorem seqImage_getLsbD (f : Nat → Level) (n i : Nat) (hn : n ≤ 67) :
    (seqImage f n).getLsbD i = (decide (i < n) && f i) := by
  induction n with
  | zero => simp [seqImage]
  | succ n ih =>
    rw [seqImage, BitVec.getLsbD_or, ih (by omega)]
    by_cases hi : i = n
    · subst hi
      cases hf : f i <;> simp [BitVec.getLsbD_twoPow] ; omega
    · have hni : n ≠ i := fun h => hi h.symm
      have : decide (i < n + 1) = decide (i < n) := by simp; omega
      rw [this]
      cases f n <;> simp [BitVec.getLsbD_twoPow, hni]

theorem seqLength_le {w : Nat} (h : w ≤ 32) : seqLength w ≤ 67 := by unfold seqLength; omega

/-- The four registers after a synthesis, element by element (R152). -/
theorem synthesize_bits (d : DataWord) (m : Mode) (hw : m.w.toNat ≤ 32) (i : Nat) :
    (synthesize d m).cs.getLsbD i = (decide (i < seqLength m.w.toNat) && csSeq m.w.toNat i) ∧
    (synthesize d m).ck.getLsbD i = (decide (i < seqLength m.w.toNat) && clkSeq m.cpol m.w.toNat i) ∧
    (synthesize d m).dout.getLsbD i = (decide (i < seqLength m.w.toNat) && doutSeq d m.cpha m.w.toNat i) ∧
    (synthesize d m).tr.getLsbD i = (decide (i < seqLength m.w.toNat) && trigSeq m.cpha m.w.toNat i) :=
  ⟨seqImage_getLsbD _ _ _ (seqLength_le hw), seqImage_getLsbD _ _ _ (seqLength_le hw),
    seqImage_getLsbD _ _ _ (seqLength_le hw), seqImage_getLsbD _ _ _ (seqLength_le hw)⟩

theorem synthesize_len (d : DataWord) (m : Mode) (hw : m.w.toNat ≤ 32) :
    (synthesize d m).len.toNat = seqLength m.w.toNat := by
  simp only [synthesize, BitVec.toNat_ofNat]
  have := seqLength_le hw
  omega

/-- The positions of the trigger, arithmetically: t(0), t(0)+2, .., W of them. -/
theorem trigSeqWith_iff (shift : Nat) (cpha : Level) (w i : Nat) :
    trigSeqWith shift cpha w i = true ↔ ∃ k, k < w ∧ i = samplePosWith shift cpha k := by
  simp [trigSeqWith]

end Sys2Proof.Machine
end

