-- ==== Sys2Proof/Laws/Xfer.lean ====
section
/-! SUPPORT. The sample positions by arithmetic, the sequence registers during a transfer, the effect of a sample, and
what no micro-step changes. -/

namespace Sys2Proof.Machine

/-- The trigger at index i by arithmetic: the even distances from t(0), W of them (R148). -/
theorem trigSeq_eq (cpha : Level) (w i : Nat) :
    trigSeq cpha w i =
      decide (2 + cpha.toNat ≤ i ∧ i < 2 + cpha.toNat + 2 * w ∧ (i - cpha.toNat) % 2 = 0) := by
  rw [Bool.eq_iff_iff, trigSeq, trigSeqWith_iff]
  simp only [samplePosWith, Config.trig1Shift, decide_eq_true_eq, Nat.mul_one]
  constructor
  · rintro ⟨k, h, rfl⟩; omega
  · intro h; exact ⟨(i - cpha.toNat) / 2 - 1, by omega, by omega⟩

theorem samplesBelow_succ (m : Mode) (n : Nat) :
    samplesBelow m (n + 1) = samplesBelow m n + (if trigSeq m.cpha m.w.toNat n then 1 else 0) := by
  simp only [samplesBelow]
  rw [List.range_succ, List.countP_append, List.countP_singleton]

/-- During a transfer element IDX of each register is the sequence function at IDX. -/
theorem State.Running.elem_eq {s : State} (hw : s.mode.w.toNat ≤ 32) (r : s.Running) :
    s.elem s.seq.dout = doutSeq s.tx s.mode.cpha s.mode.w.toNat s.idx.toNat ∧
    s.elem s.seq.ck = clkSeq s.mode.cpol s.mode.w.toNat s.idx.toNat ∧
    s.elem s.seq.cs = csSeq s.mode.w.toNat s.idx.toNat ∧
    s.elem s.seq.tr = trigSeq s.mode.cpha s.mode.w.toNat s.idx.toNat := by
  obtain ⟨a, b, c, d⟩ := synthesize_bits s.tx s.mode hw s.idx.toNat
  simp only [State.elem, r.seq, a, b, c, d, r.idx]
  simp

/-- L - 1 as the engine computes it from SEQLEN. -/
theorem len_sub_one {s : State} (hw : s.mode.w.toNat ≤ 32) (hs : s.seq = synthesize s.tx s.mode) :
    (s.seq.len - 1#7).toNat = 2 * s.mode.w.toNat + 2 := by
  have := synthesize_len s.tx s.mode hw
  rw [hs, BitVec.toNat_sub, this, seqLength]
  simp
  omega

/-- One sample lets RX grow by one bit. -/
theorem sample_lt (s : State) (v : Level) (n : Nat) (h : s.rx.toNat < 2 ^ n) :
    (s.sample v).rx.toNat < 2 ^ (n + 1) := by
  simp only [State.sample, BitVec.toNat_or, BitVec.toNat_shiftLeft, BitVec.toNat_setWidth, BitVec.toNat_ofBool,
    Nat.shiftLeft_eq]
  apply Nat.or_lt_two_pow
  · refine lt_of_le_of_lt (Nat.mod_le _ _) ?_
    rw [pow_succ]; omega
  · refine lt_of_le_of_lt (Nat.mod_le _ _) ?_
    have := v.toNat_lt
    have : 2 ≤ 2 ^ (n + 1) := by rw [pow_succ]; have := Nat.one_le_two_pow (n := n); omega
    omega

/-- Taking a level writes RX at most. -/
theorem takeLevel_eq (s : State) (v : Level) : s.takeLevel v = { s with rx := (s.takeLevel v).rx } := by
  unfold State.takeLevel
  split <;> simp [State.sample]

/-- What no micro-step changes: the settings, the word latched and its sequences, and the inputs to come (R41). -/
structure KeepsSettings (s t : State) : Prop where
  mode : t.mode = s.mode
  mvalid : t.mvalid = s.mvalid
  delayMs : t.delayMs = s.delayMs
  tx : t.tx = s.tx
  seq : t.seq = s.seq
  seqvalid : t.seqvalid = s.seqvalid
  env : t.env = s.env

theorem keepsSettings_advance (s : State) : KeepsSettings s s.advance := by
  rcases s.advance_cases with ⟨_, h⟩ | ⟨_, h⟩ <;> rw [h] <;> exact ⟨rfl, rfl, rfl, rfl, rfl, rfl, rfl⟩

theorem keepsSettings_writeStep (s : State) (p : Pins) (l : OutLine) (v : Level) (ph : Phase) :
    KeepsSettings s (s.writeStep p l v ph) := by
  rcases s.writeStep_cases p l v ph with ⟨_, h⟩ | ⟨_, h⟩ <;> rw [h] <;> cases l <;>
    exact ⟨rfl, rfl, rfl, rfl, rfl, rfl, rfl⟩

/-- Every micro-step keeps the settings, and the inputs are moved on by the step around it, not by the micro-step. -/
theorem microStep_keepsSettings (p : Pins) (s : State) : KeepsSettings s (microStep p s) := by
  unfold microStep
  split
  · exact ⟨rfl, rfl, rfl, rfl, rfl, rfl, rfl⟩
  · exact keepsSettings_writeStep ..
  · exact keepsSettings_writeStep ..
  · exact keepsSettings_writeStep ..
  · unfold microRd
    rcases s.pinRead_cases p with ⟨_, h⟩ | ⟨_, h⟩ <;> rw [h]
    · simp only
      rw [takeLevel_eq]
      rcases State.waitOrAdvance_cases { s.record (.read (some (s.misoLevel p))) with
        rx := ((s.record (.read (some (s.misoLevel p)))).takeLevel (s.misoLevel p)).rx } with ⟨_, h⟩ | ⟨_, h⟩ <;>
        rw [h]
      · obtain ⟨a, b, c, d, e, f, g⟩ := keepsSettings_advance { s.record (.read (some (s.misoLevel p))) with
          rx := ((s.record (.read (some (s.misoLevel p)))).takeLevel (s.misoLevel p)).rx }
        exact ⟨a, b, c, d, e, f, g⟩
      · exact ⟨rfl, rfl, rfl, rfl, rfl, rfl, rfl⟩
    · exact ⟨rfl, rfl, rfl, rfl, rfl, rfl, rfl⟩
  · unfold microWait
    split
    · obtain ⟨a, b, c, d, e, f, g⟩ := keepsSettings_advance (s.record (.wait s.delayMs))
      exact ⟨a, b, c, d, e, f, g⟩
    · exact ⟨rfl, rfl, rfl, rfl, rfl, rfl, rfl⟩
  · exact ⟨rfl, rfl, rfl, rfl, rfl, rfl, rfl⟩

/-! What a micro-step answers, and what it does not look at. -/

theorem advance_rsp {s : State} {r : RspWord} (h : s.rsp = none) (hr : s.advance.rsp = some r) :
    r = rspWord .ok s.rx := by
  rcases s.advance_cases with ⟨_, e⟩ | ⟨_, e⟩ <;> rw [e] at hr
  · simpa [State.complete] using hr.symm
  · exact absurd (h.symm.trans hr) (by simp)

/-- A micro-step answers OK with some word, PortError with 0, or nothing (R180, R182). -/
theorem microStep_rsp {p : Pins} {s : State} {r : RspWord} (h : s.rsp = none) (hr : (microStep p s).rsp = some r) :
    (∃ d, r = rspWord .ok d) ∨ r = rspWord .portError 0#32 := by
  have hw : ∀ l v ph, (s.writeStep p l v ph).rsp ≠ some r := by
    intro l v ph hc
    rcases s.writeStep_cases p l v ph with ⟨_, e⟩ | ⟨_, e⟩ <;> rw [e] at hc <;> cases l <;>
      exact absurd (h.symm.trans hc) (by simp)
  unfold microStep at hr
  split at hr
  · exact absurd (h.symm.trans hr) (by simp)
  · exact (hw _ _ _ hr).elim
  · exact (hw _ _ _ hr).elim
  · exact (hw _ _ _ hr).elim
  · unfold microRd at hr
    rcases s.pinRead_cases p with ⟨_, e⟩ | ⟨_, e⟩ <;> rw [e] at hr
    · simp only at hr
      have hn : ((s.record (.read (some (s.misoLevel p)))).takeLevel (s.misoLevel p)).rsp = none := by
        rw [takeLevel_eq]; exact h
      rcases State.waitOrAdvance_cases ((s.record (.read (some (s.misoLevel p)))).takeLevel (s.misoLevel p)) with
        ⟨_, e⟩ | ⟨_, e⟩ <;> rw [e] at hr
      · exact .inl ⟨_, advance_rsp hn hr⟩
      · exact absurd (hn.symm.trans hr) (by simp)
    · exact absurd (h.symm.trans hr) (by simp)
  · unfold microWait at hr
    split at hr
    · exact .inl ⟨_, advance_rsp (s := s.record (.wait s.delayMs)) h hr⟩
    · exact absurd (h.symm.trans hr) (by simp)
  · exact .inr (by simpa [microAbort] using hr.symm)

theorem advance_presented (s : State) (ws : List (Option CmdWord)) :
    (s.presented ws).advance = s.advance.presented ws := by
  by_cases h : s.idx = s.seq.len - 1#7
  · rw [State.advance_last h, State.advance_last (s := s.presented ws) h]; rfl
  · rw [State.advance_next h, State.advance_next (s := s.presented ws) h]; rfl

/-- No micro-step looks at the words the host presents (R33). -/
theorem microStep_presented (p : Pins) (s : State) (ws : List (Option CmdWord)) :
    microStep p (s.presented ws) = (microStep p s).presented ws := by
  unfold microStep
  rw [State.presented_ph]
  cases s.ph <;> simp only
  · cases h : p.ioFault <;> simp [microWrD, State.writeStep, State.pinWrite, h] <;> rfl
  · cases h : p.ioFault <;> simp [microWrK, State.writeStep, State.pinWrite, h] <;> rfl
  · cases h : p.ioFault <;> simp [microWrS, State.writeStep, State.pinWrite, h] <;> rfl
  · cases h : p.ioFault
    · simp only [microRd, State.pinRead, h, Bool.false_eq_true, if_false]
      rw [show (s.presented ws).misoLevel p = s.misoLevel p from rfl]
      generalize s.misoLevel p = v
      have ht : ((s.presented ws).record (.read (some v))).takeLevel v =
          ((s.record (.read (some v))).takeLevel v).presented ws := by
        unfold State.takeLevel
        rw [show ((s.presented ws).record (.read (some v))).elem ((s.presented ws).record (.read (some v))).seq.tr =
          (s.record (.read (some v))).elem (s.record (.read (some v))).seq.tr from rfl]
        split <;> rfl
      rw [ht]
      unfold State.waitOrAdvance
      rw [State.presented_delayMs]
      split
      · exact advance_presented ..
      · rfl
    · simp [microRd, State.pinRead, h]; rfl
  · unfold microWait
    split
    · exact advance_presented (s.record (.wait s.delayMs)) ws
    · rfl
  · rfl

end Sys2Proof.Machine
end

