-- ==== Sys2Proof/Tests/Slice0.lean ====
section
/-! SUPPORT. Tests: ill-formed assembler lines, words written out from the spec's encodings, one step of each command and
micro-step with the values of spec/95_test_vectors.md, and for every statement with hypotheses a state and operands that
meet them all together. -/

namespace Sys2Proof.Tests

open Sys2Proof.Machine

/-! ## Well-formedness (R104): one ill-formed line for each check -/

theorem test_wf_refuses_cpol_2 : (AsmLine.mode 2 0 8).wellFormed = false := by decide

theorem test_wf_refuses_cpha_2 : (AsmLine.mode 0 2 8).wellFormed = false := by decide

theorem test_wf_refuses_width_256 : (AsmLine.mode 0 0 256).wellFormed = false := by decide

theorem test_wf_refuses_delay_65536 : (AsmLine.delay 65536).wellFormed = false := by decide

theorem test_wf_refuses_data_2_32 :
    (AsmLine.synth 0x100000000).wellFormed = false ∧ (AsmLine.xfer 0x100000000).wellFormed = false := by decide

theorem test_wf_refuses_mode_number_4 : (AsmLine.modeN 4 8).wellFormed = false := by decide

theorem test_wf_refuses_transfer_parts :
    (AsmLine.transfer 0x100000000 0 0 8 none).wellFormed = false ∧
    (AsmLine.transfer 1 2 0 8 none).wellFormed = false ∧ (AsmLine.transfer 1 0 2 8 none).wellFormed = false ∧
    (AsmLine.transfer 1 0 0 256 none).wellFormed = false ∧
    (AsmLine.transfer 1 0 0 8 (some 65536)).wellFormed = false := by decide

theorem test_wf_refuses_synthesize_parts :
    (AsmLine.synthesize 0x100000000 0 0 8).wellFormed = false ∧ (AsmLine.synthesize 1 2 0 8).wellFormed = false ∧
    (AsmLine.synthesize 1 0 2 8).wellFormed = false ∧ (AsmLine.synthesize 1 0 0 256).wellFormed = false := by decide

/-- The largest numbers of R104 are in range. -/
theorem test_wf_accepts_the_largest :
    (AsmLine.mode 1 1 255).wellFormed = true ∧ (AsmLine.delay 65535).wellFormed = true ∧
    (AsmLine.synth 0xFFFFFFFF).wellFormed = true ∧ (AsmLine.xfer 0xFFFFFFFF).wellFormed = true ∧
    (AsmLine.modeN 3 255).wellFormed = true := by decide

/-! ## Decoding: words of R93 to R95 and of spec/95_test_vectors.md part 2.1, bit by bit -/

/-- M3: OP 0001, bit 9 = CPOL 1, bit 8 = CPHA 0, w = 0000 1000. -/
theorem test_decode_mode :
    decode 0b0001000000000000000000000000001000001000#40 = .ok (.mode true false 8#8) := by rfl

/-- M2: bit 8 is CPHA. -/
theorem test_decode_mode_cpha : decode 0x1000000108#40 = .ok (.mode false true 8#8) := by rfl

/-- M15: OP 0010, ms in the low 16 bits. -/
theorem test_decode_delay :
    decode 0b0010000000000000000000000000000000000001#40 = .ok (.delay 1#16) := by rfl

/-- Y20: OP 0011, data in the low 32 bits. -/
theorem test_decode_synth :
    decode 0b0011000000000000000000000000000010100101#40 = .ok (.synth 0xA5#32) := by rfl

/-- S8: OP 0100, data in the low 32 bits. -/
theorem test_decode_xfer :
    decode 0b0100000000000000000000000000000000001111#40 = .ok (.xfer 0xF#32) := by rfl

/-- M11, M12, M13, M17 to M22: reserved bits and reserved opcodes. -/
theorem test_decode_illegal :
    decode 0x1000000400#40 = .error .reservedBits ∧ decode 0x1800000008#40 = .error .reservedBits ∧
    decode 0x2000010000#40 = .error .reservedBits ∧ decode 0x3100000000#40 = .error .reservedBits ∧
    decode 0x4F00000000#40 = .error .reservedBits ∧ decode 0x0000000000#40 = .error .reservedOpcode ∧
    decode 0x5000000000#40 = .error .reservedOpcode := ⟨rfl, rfl, rfl, rfl, rfl, rfl, rfl⟩

theorem test_table_word_mode : decodeTableWord 40 0x1000000308 = some (.mode true true 8#8) := by decide

theorem test_table_word_zero_operands :
    decodeTableWord 40 0x2000000000 = some (.delay 0#16) ∧ decodeTableWord 40 0x3000000000 = some (.synth 0#32) ∧
    decodeTableWord 40 0x4000000000 = some (.xfer 0#32) ∧ decodeTableWord 40 0x0000000000 = none := by decide

/-! ## Small states -/

/-- The next state, where there is one. -/
def next? (o : Host.Outcome State Fault Refusal) : Option State :=
  match o with
  | .next t => some t
  | .fault _ => none
  | .refused _ => none

/-- Inputs that never fail, never wait, and present the level 1 (R64, R226: a platform that ties them). -/
def quiet : Pins := { miso := true, ioFault := false, waitDone := true }

/-- The inputs of a platform that ties all three, with these words to present. -/
def tiedEnv (ws : List (Option CmdWord)) : Env := { Env.empty with pending := ws, tied := some quiet }

/-- Reset, then MODE cpol, cpha, w and DELAY ms; these words still to come. -/
def ready (cpol cpha : Level) (w : BitVec 8) (ms : BitVec 16) (ws : List (Option CmdWord)) : State :=
  { State.reset with
    mode := { cpol := cpol, cpha := cpha, w := w }, mvalid := true, delayMs := ms, env := tiedEnv ws }

/-- The same, wired as in R76. -/
def looped (s : State) : State := { s with env := { s.env with wiring := .loopback } }

/-- The coming step's inputs are these. -/
def withPins (s : State) (p : Pins) : State := { s with env := { s.env with pins := [p] } }

/-- The coming access fails. -/
def failing : Pins := { miso := true, ioFault := true, waitDone := false }

/-- A transfer of 5 under (0,0,8) with delay `ms`, at index 0 in phase `ph`. -/
def inTransfer (ph : Phase) (ms : BitVec 16) : State :=
  { ready false false 8#8 ms [] with
    tx := 5#32, seq := synthesize 5#32 { cpol := false, cpha := false, w := 8#8 }, seqvalid := true
    ph := ph, busy := true }

/-- The same transfer at another index. -/
def atIndex (i : BitVec 7) (s : State) : State := { s with idx := i }

/-! ## One step of each command -/

/-- M6: MODE 0, 0, 32 makes the largest width current. -/
theorem test_mode_largest_width :
    (next? (exec (.mode false false 32#8) State.reset)).map (fun t => (t.modeO, t.mvalid, t.rsp)) =
      some (0x020#10, true, some 0#35) := by decide

/-- M10: MODE 1, 1, 0 after MODE 0, 0, 8 leaves the Mode and answers InvalidConfiguration. -/
theorem test_mode_zero_width :
    (next? (exec (.mode true true 0#8) (ready false false 8#8 0#16 []))).map
      (fun t => (t.modeO, t.mvalid, t.lasterr, t.rsp)) =
      some (0x008#10, true, .invalidConfiguration, some 0x100000000#35) := by decide

/-- M16: DELAY 65535, without a Mode (M24). -/
theorem test_delay_largest :
    (next? (exec (.delay 0xFFFF#16) State.reset)).map (fun t => (t.delayMs, t.rsp)) =
      some (0xFFFF#16, some 0#35) := by decide

/-- Y20: the sequence registers after SYNTH 0xA5 under (0,0,8). -/
theorem test_synth_images :
    (next? (exec (.synth 0xA5#32) (ready false false 8#8 0#16 []))).map
      (fun t => (t.seq.cs, t.seq.ck, t.seq.dout, t.seq.tr, t.seq.len, t.rsp)) =
      some (0x60001#67, 0x15554#67, 0x19866#67, 0x15554#67, 19#7, some 0x13#35) := by decide

/-- Y32: SYNTH 0x80000001 under (1,1,32). -/
theorem test_synth_widest :
    (next? (exec (.synth 0x80000001#32) (ready true true 32#8 0#16 []))).map
      (fun t => (t.seq.cs, t.seq.ck, t.seq.dout, t.seq.tr, t.rsp)) =
      some (0x60000000000000001#67, 0x6AAAAAAAAAAAAAAAB#67, 0x3000000000000000C#67, 0x2AAAAAAAAAAAAAAA8#67,
        some 0x43#35) := by decide

/-- X1, Y4: XFER 1 under (1,1,1) latches the sequences and starts at (0, WR_D); no event yet. -/
theorem test_xfer_accepted :
    (next? (exec (.xfer 1#32) (ready true true 1#8 0#16 []))).map
      (fun t => (t.busy, t.ph, t.seq.dout, t.seq.ck, t.seq.tr, t.rsp, t.events)) =
      some (true, .wrD, 0xC#67, 0x1B#67, 0x8#67, none, []) := by rfl

/-- X1: XFER 2 under W = 1 answers ValueOutOfRange with no event at all. -/
theorem test_xfer_out_of_range :
    (next? (exec (.xfer 2#32) (ready false false 1#8 0#16 []))).map
      (fun t => (t.busy, t.lasterr, t.rsp, t.events)) =
      some (false, .valueOutOfRange, some 0x200000000#35, []) := by decide

/-- M18: the all-zero word answers IllegalCommand. -/
theorem test_illegal_word :
    (next? (step (ready false false 8#8 0#16 [some 0#40]))).map (fun t => (t.lasterr, t.rsp, t.env.pending)) =
      some (.illegalCommand, some 0x500000000#35, []) := by decide

/-! ## One micro-step of each phase (R173 to R182) -/

/-- 5 is 00000101, so b(5) = 1 is on the wire at the indices 11 and 12 (R146). -/
theorem test_wrD :
    (next? (step (atIndex 12#7 (inTransfer .wrD 0#16)))).map (fun t => (t.ph, t.outMosi, t.events)) =
      some (.wrK, true, [.write .mosi true true]) := by decide

/-- The clock is 1 at even indices from 2 (R143). -/
theorem test_wrK :
    (next? (step (atIndex 2#7 (inTransfer .wrK 0#16)))).map (fun t => (t.ph, t.outSclk, t.events)) =
      some (.wrS, true, [.write .sclk true true]) := by decide

/-- Chip select falls at index 1 (R142). -/
theorem test_wrS :
    (next? (step (atIndex 1#7 (inTransfer .wrS 0#16)))).map (fun t => (t.ph, t.outCsn, t.events)) =
      some (.rd, false, [.write .csn false true]) := by decide

/-- A trigger at index 2: the level 1 is shifted in (R177), and the next index follows (R179). -/
theorem test_rd_samples :
    (next? (step (atIndex 2#7 (inTransfer .rd 0#16)))).map (fun t => (t.ph, t.idx, t.rx, t.events)) =
      some (.wrD, 3#7, 1#32, [.read (some true)]) := by decide

/-- In loopback the read returns OUT_MOSI (R76). -/
theorem test_rd_loopback :
    (next? (step (looped (atIndex 2#7 (inTransfer .rd 1#16))))).map (fun t => (t.ph, t.idx, t.rx, t.events)) =
      some (.wait, 2#7, 0#32, [.read (some false)]) := by decide

/-- The wait of the last index (18 for W = 8) ends the transfer (R180). -/
theorem test_wait_last :
    (next? (step (atIndex 18#7 (inTransfer .wait 1#16)))).map (fun t => (t.ph, t.busy, t.rxvalid, t.rsp, t.events)) =
      some (.idle, false, true, some 0#35, [.wait 1#16]) := by decide

/-- A failed write leaves the register and goes to ABORT (R181). -/
theorem test_failed_write :
    (next? (step (withPins (atIndex 1#7 (inTransfer .wrS 0#16)) failing))).map
      (fun t => (t.ph, t.outCsn, t.events)) = some (.abort, true, [.write .csn false false]) := by decide

/-- ABORT forces chip select and reports PortError (R182). -/
theorem test_abort :
    (next? (step { atIndex 1#7 (inTransfer .abort 0#16) with outCsn := false })).map
      (fun t => (t.ph, t.busy, t.outCsn, t.rxvalid, t.idx, t.rsp, t.events)) =
      some (.idle, false, true, false, 1#7, some 0x300000000#35, [.force true]) := by rfl

/-! ## A placed word is the first thing to run after reset -/

theorem test_placed_mode :
    step (State.reset.withFetchWord 40 0x1000000008) =
      exec (.mode false false 8#8) { State.reset with env := { Env.empty with time := 1 } } := by rfl

theorem test_placed_delay :
    step (State.reset.withFetchWord 40 0x2000000000) =
      exec (.delay 0#16) { State.reset with env := { Env.empty with time := 1 } } := by rfl

theorem test_placed_synth :
    step (State.reset.withFetchWord 40 0x3000000000) =
      exec (.synth 0#32) { State.reset with env := { Env.empty with time := 1 } } := by rfl

theorem test_placed_xfer :
    step (State.reset.withFetchWord 40 0x4000000000) =
      exec (.xfer 0#32) { State.reset with env := { Env.empty with time := 1 } } := by rfl

/-! ## Witnesses: for every statement with hypotheses, a state and operands that meet them -/

theorem test_witness_EncodeInvertsDecode : decode 0x10000003FF#40 = .ok (.mode true true 255#8) := by rfl

/-- A word of each row, and one of none. -/
theorem test_witness_DecodeFollowsTheFormats :
    0x10000003FF#40 &&& 0xFFFFFFFC00#40 = 0x1000000000#40 ∧
    0x200000FFFF#40 &&& 0xFFFFFF0000#40 = 0x2000000000#40 ∧
    0x30FFFFFFFF#40 &&& 0xFF00000000#40 = 0x3000000000#40 ∧
    0x40FFFFFFFF#40 &&& 0xFF00000000#40 = 0x4000000000#40 ∧
    (0x1000000400#40 &&& 0xFFFFFFFC00#40 ≠ 0x1000000000#40 ∧ 0x1000000400#40 &&& 0xFFFFFF0000#40 ≠ 0x2000000000#40 ∧
      0x1000000400#40 &&& 0xFF00000000#40 ≠ 0x3000000000#40 ∧
      0x1000000400#40 &&& 0xFF00000000#40 ≠ 0x4000000000#40) := by decide

/-- The largest number of every operand, and the largest mode number. -/
theorem test_witness_AssemblerLinesGiveTheirWords :
    (1 ≤ 1 ∧ 1 ≤ 1 ∧ 255 ≤ 255) ∧ 65535 ≤ 65535 ∧ 0xFFFFFFFF ≤ 0xFFFFFFFF ∧ 3 ≤ 3 ∧
    (AsmLine.modeN 3 255).assemble = some [.mode true true 255#8] := by decide

/-- A ready block with one word to come. -/
theorem test_witness_StepRunsTheDecodedCommand :
    (ready false false 8#8 0#16 [some 0x400000000F#40]).env.rstAt 0 = false ∧
    (ready false false 8#8 0#16 [some 0x400000000F#40]).ph = .idle ∧
    (ready false false 8#8 0#16 [some 0x400000000F#40]).busy = false ∧
    (ready false false 8#8 0#16 [some 0x400000000F#40]).env.pending = [some 0x400000000F#40] ∧
    decode 0x400000000F#40 = .ok (.xfer 15#32) := ⟨rfl, rfl, rfl, rfl, rfl⟩

/-- Illegal words: a reserved opcode at each end, and a lowest and a highest reserved bit of each format. -/
theorem test_witness_IllegalWordIsAnswered :
    (State.reset.env.rstAt 0 = false ∧ State.reset.ph = .idle ∧ State.reset.busy = false ∧
      (ready false false 8#8 0#16 [some 0x1000000400#40]).env.pending = [some 0x1000000400#40]) ∧
    IllegalWord 0x0000000000#40 ∧ IllegalWord 0x5000000000#40 ∧ IllegalWord 0xF000000000#40 ∧
    IllegalWord 0x1000000400#40 ∧ IllegalWord 0x1800000008#40 ∧ IllegalWord 0x2000010000#40 ∧
    IllegalWord 0x2800000000#40 ∧ IllegalWord 0x3100000000#40 ∧ IllegalWord 0x4800000000#40 :=
  ⟨⟨rfl, rfl, rfl, rfl⟩, .inl rfl, .inr (.inl (by decide)), .inr (.inl (by decide)),
    .inr (.inr (.inl ⟨rfl, 10, by decide, by decide, rfl⟩)), .inr (.inr (.inl ⟨rfl, 35, by decide, by decide, rfl⟩)),
    .inr (.inr (.inr (.inl ⟨rfl, 16, by decide, by decide, rfl⟩))),
    .inr (.inr (.inr (.inl ⟨rfl, 35, by decide, by decide, rfl⟩))),
    .inr (.inr (.inr (.inr ⟨.inl rfl, 32, by decide, by decide, rfl⟩))),
    .inr (.inr (.inr (.inr ⟨.inr rfl, 35, by decide, by decide, rfl⟩)))⟩

/-- A busy block with a word presented. -/
theorem test_witness_BusyTurnsCommandsAway :
    ({ inTransfer .rd 0#16 with env := tiedEnv [some 0x1000000008#40] } : State).busy = true := by rfl

/-- With nothing to come, and in a pause of the host's. -/
theorem test_witness_NothingHappensWithoutACommand :
    (State.reset.env.rstAt 0 = false ∧ State.reset.ph = .idle ∧ State.reset.busy = false ∧
      State.reset.env.pending = []) ∧
    ((ready false false 8#8 0#16 [none, some 0#40]).env.rstAt 0 = false ∧
      (ready false false 8#8 0#16 [none, some 0#40]).env.pending = none :: [some 0#40]) :=
  ⟨⟨rfl, rfl, rfl, rfl⟩, rfl, rfl⟩

/-- A reset that arrives in the middle of a transfer. -/
theorem test_witness_ResetWinsOverEverything :
    ({ inTransfer .rd 0#16 with env := { tiedEnv [] with rst := [true] } } : State).env.rstAt 0 = true := by rfl

/-- The smallest and the largest legal width, and the illegal ones beside them. -/
theorem test_witness_ModeMakesItsModeCurrent :
    State.reset.busy = false ∧ (1 ≤ (1#8).toNat ∧ (1#8).toNat ≤ 32) ∧ (1 ≤ (32#8).toNat ∧ (32#8).toNat ≤ 32) ∧
    (0#8).toNat < 1 ∧ 32 < (33#8).toNat ∧ 32 < (255#8).toNat := by
  decide

/-- A MODE that raises the error, one that does not, a step that raises it, and one that raises it again. -/
theorem test_witness_InvalidConfigurationExactlyForBadWidths :
    State.reset.busy = false ∧ State.reset.lasterr ≠ .invalidConfiguration ∧
    (∃ t, exec (.mode false false 33#8) State.reset = .next t ∧ t.lasterr = .invalidConfiguration) ∧
    (∃ t, exec (.mode false false 32#8) State.reset = .next t ∧ t.lasterr = .ok) ∧
    (∃ t, step { State.reset with env := tiedEnv [some 0x1000000021#40] } = .next t ∧
      t.lasterr = .invalidConfiguration) ∧
    ∃ t r, step { State.reset with
        lasterr := .invalidConfiguration, env := tiedEnv [some 0x1000000000#40] } = .next t ∧
      t.rsp = some r ∧ r.extractLsb' 32 3 = 1#3 :=
  ⟨rfl, by decide, ⟨_, rfl, rfl⟩, ⟨_, rfl, rfl⟩, ⟨_, rfl, rfl⟩, _, _, rfl, rfl, by decide⟩

theorem test_witness_DelaySetsTheDelay : State.reset.busy = false := by rfl

/-- SYNTH without a Mode, with the smallest word out of range, and at the smallest and the largest width with the largest
word in range. -/
theorem test_witness_SynthLoadsTheSequences :
    (State.reset.busy = false ∧ State.reset.mvalid = false) ∧
    2 ^ (ready false false 1#8 0#16 []).mode.w.toNat ≤ (2#32).toNat ∧
    ((ready false false 1#8 0#16 []).busy = false ∧ (ready false false 1#8 0#16 []).mvalid = true ∧
      1 ≤ (ready false false 1#8 0#16 []).mode.w.toNat ∧ (ready false false 1#8 0#16 []).mode.w.toNat ≤ 32 ∧
      (1#32).toNat < 2 ^ (ready false false 1#8 0#16 []).mode.w.toNat) ∧
    ((ready true true 32#8 0#16 []).busy = false ∧ (ready true true 32#8 0#16 []).mvalid = true ∧
      1 ≤ (ready true true 32#8 0#16 []).mode.w.toNat ∧ (ready true true 32#8 0#16 []).mode.w.toNat ≤ 32 ∧
      (0xFFFFFFFF#32).toNat < 2 ^ (ready true true 32#8 0#16 []).mode.w.toNat) := by decide

/-- XFER at the smallest and the largest width, and the SYNTH of the same word. -/
theorem test_witness_XferStartsATransfer :
    ((ready false false 1#8 0#16 []).busy = false ∧ (ready false false 1#8 0#16 []).mvalid = true ∧
      1 ≤ (ready false false 1#8 0#16 []).mode.w.toNat ∧ (ready false false 1#8 0#16 []).mode.w.toNat ≤ 32 ∧
      (1#32).toNat < 2 ^ (ready false false 1#8 0#16 []).mode.w.toNat) ∧
    ((ready true true 32#8 0#16 []).busy = false ∧ (ready true true 32#8 0#16 []).mvalid = true ∧
      1 ≤ (ready true true 32#8 0#16 []).mode.w.toNat ∧ (ready true true 32#8 0#16 []).mode.w.toNat ≤ 32 ∧
      (0xFFFFFFFF#32).toNat < 2 ^ (ready true true 32#8 0#16 []).mode.w.toNat) ∧
    ∃ t, exec (.synth 1#32) (ready false false 1#8 0#16 []) = .next t :=
  ⟨by decide, by decide, _, rfl⟩

theorem test_witness_NoModeAnswersSynthAndXfer :
    State.reset.busy = false ∧ State.reset.mvalid = false := by decide

/-- 255 and 256 under W = 8, and the next states the second clause names. -/
theorem test_witness_ValueOutOfRangeExactlyFromTwoToTheW :
    (ready false false 8#8 0#16 []).busy = false ∧ (ready false false 8#8 0#16 []).mvalid = true ∧
    2 ^ (ready false false 8#8 0#16 []).mode.w.toNat ≤ (256#32).toNat ∧
    (255#32).toNat < 2 ^ (ready false false 8#8 0#16 []).mode.w.toNat ∧
    (∃ t, exec (.synth 255#32) (ready false false 8#8 0#16 []) = .next t) ∧
    (∃ t, exec (.xfer 255#32) (ready false false 8#8 0#16 []) = .next t) :=
  ⟨rfl, rfl, by decide, by decide, ⟨_, rfl⟩, ⟨_, rfl⟩⟩

/-- MODE with its effect, and MODE with the error. -/
theorem test_witness_ModeFrame :
    (∃ t, exec (.mode true true 8#8) State.reset = .next t ∧ t.lasterr = .ok) ∧
    (∃ t, exec (.mode true true 0#8) State.reset = .next t ∧ t.lasterr = .invalidConfiguration) :=
  ⟨⟨_, rfl, rfl⟩, ⟨_, rfl, rfl⟩⟩

theorem test_witness_DelayFrame : ∃ t, exec (.delay 7#16) State.reset = .next t := ⟨_, rfl⟩

/-- SYNTH with its effect, without a Mode, and with a word out of range. -/
theorem test_witness_SynthFrame :
    (∃ t, exec (.synth 255#32) (ready false true 8#8 0#16 []) = .next t) ∧
    ((∃ t, exec (.synth 0#32) State.reset = .next t) ∧ State.reset.mvalid = false) ∧
    ((∃ t, exec (.synth 256#32) (ready false true 8#8 0#16 []) = .next t) ∧
      2 ^ (ready false true 8#8 0#16 []).mode.w.toNat ≤ (256#32).toNat) :=
  ⟨⟨_, rfl⟩, ⟨⟨_, rfl⟩, rfl⟩, ⟨⟨_, rfl⟩, by decide⟩⟩

/-- XFER with its effect, without a Mode, and with a word out of range. -/
theorem test_witness_XferFrame :
    (∃ t, exec (.xfer 255#32) (ready false true 8#8 0#16 []) = .next t) ∧
    ((∃ t, exec (.xfer 0#32) State.reset = .next t) ∧ State.reset.mvalid = false) ∧
    ((∃ t, exec (.xfer 256#32) (ready false true 8#8 0#16 []) = .next t) ∧
      2 ^ (ready false true 8#8 0#16 []).mode.w.toNat ≤ (256#32).toNat) :=
  ⟨⟨_, rfl⟩, ⟨⟨_, rfl⟩, rfl⟩, ⟨⟨_, rfl⟩, by decide⟩⟩

theorem test_witness_SynthAndXferUseNothingOld :
    (ready true false 4#8 0#16 []).busy = false ∧ (ready true false 4#8 0#16 []).mvalid = true ∧
    (15#32).toNat < 2 ^ (ready true false 4#8 0#16 []).mode.w.toNat := by decide

/-- Each write phase, with an access that passes and one that fails. -/
theorem test_witness_WriteMicroSteps :
    ∀ ph, ph = Phase.wrD ∨ ph = Phase.wrK ∨ ph = Phase.wrS →
      (inTransfer ph 0#16).env.rstAt 0 = false ∧ (inTransfer ph 0#16).ph = ph ∧
      (inTransfer ph 0#16).env.now.ioFault = false ∧
      (withPins (inTransfer ph 0#16) failing).env.now.ioFault = true := by
  rintro ph (rfl | rfl | rfl) <;> decide

/-- Every clause of the read: a failing access; no trigger at index 0, a trigger at 2; a delay, none; the last index. -/
theorem test_witness_ReadMicroStep :
    (inTransfer .rd 0#16).env.rstAt 0 = false ∧ (inTransfer .rd 0#16).ph = .rd ∧
    (withPins (inTransfer .rd 0#16) failing).env.now.ioFault = true ∧
    (inTransfer .rd 0#16).env.now.ioFault = false ∧
    (inTransfer .rd 0#16).env.wiring = .slave ∧ (looped (inTransfer .rd 0#16)).env.wiring = .loopback ∧
    (inTransfer .rd 0#16).seq.tr.getLsbD (inTransfer .rd 0#16).idx.toNat = false ∧
    (atIndex 2#7 (inTransfer .rd 0#16)).seq.tr.getLsbD (atIndex 2#7 (inTransfer .rd 0#16)).idx.toNat = true ∧
    (inTransfer .rd 1#16).delayMs ≠ 0#16 ∧
    ((inTransfer .rd 0#16).delayMs = 0#16 ∧
      (atIndex 17#7 (inTransfer .rd 0#16)).idx ≠ (inTransfer .rd 0#16).seq.len - 1#7) ∧
    (atIndex 18#7 (inTransfer .rd 0#16)).idx = (inTransfer .rd 0#16).seq.len - 1#7 := by decide

/-- A wait that goes on, one that ends, and one that ends at the last index. -/
theorem test_witness_WaitMicroStep :
    (inTransfer .wait 1#16).env.rstAt 0 = false ∧ (inTransfer .wait 1#16).ph = .wait ∧
    (withPins (inTransfer .wait 1#16) failing).env.now.waitDone = false ∧
    (inTransfer .wait 1#16).env.now.waitDone = true ∧
    (atIndex 17#7 (inTransfer .wait 1#16)).idx ≠ (inTransfer .wait 1#16).seq.len - 1#7 ∧
    (atIndex 18#7 (inTransfer .wait 1#16)).idx = (inTransfer .wait 1#16).seq.len - 1#7 := by decide

theorem test_witness_AbortMicroStep :
    (inTransfer .abort 0#16).env.rstAt 0 = false ∧ (inTransfer .abort 0#16).ph = .abort := by decide

theorem test_witness_IoFaultIgnoredOutsideAccesses :
    ∀ ph, ph = Phase.idle ∨ ph = Phase.wait ∨ ph = Phase.abort →
      (withPins (inTransfer ph 1#16) failing).ph = ph ∧
      (withPins (inTransfer ph 1#16) failing).env.pins = failing :: [] :=
  fun _ _ => ⟨rfl, rfl⟩

/-! The invariant at index 0 of a transfer, in every phase: every line still has its idle level. -/

theorem test_inTransfer_running (ph : Phase) (ms : BitVec 16) (h : ph = .wait → ms ≠ 0#16) :
    (inTransfer ph ms).Running where
  mvalid := rfl
  seqvalid := rfl
  inRange := (by decide : (5#32).toNat < 2 ^ (8#8).toNat)
  seq := rfl
  idx := (by decide : (0#7).toNat < seqLength (8#8).toNat)
  rxvalid := rfl
  delay := h
  mosi _ := rfl
  sclk _ := rfl
  csn _ := rfl
  csnBefore _ := rfl
  rx := Nat.two_pow_pos _

theorem inTransfer_inv (ph : Phase) (ms : BitVec 16) (hp : ph ≠ .idle) (h : ph = .wait → ms ≠ 0#16) :
    (inTransfer ph ms).Inv where
  busy := ⟨fun _ => hp, fun _ => rfl⟩
  width _ := (by decide : 1 ≤ (8#8).toNat ∧ (8#8).toNat ≤ 32)
  deselected _ := rfl
  idx := (by decide : (0#7).toNat < 67)
  len := (by decide : (synthesize 5#32 { cpol := false, cpha := false, w := 8#8 }).len.toNat ≤ 67)
  above i hi := by
    have hw : (8#8).toNat ≤ 32 := by decide
    have hl : seqLength (8#8).toNat ≤ i := by
      rw [← synthesize_len 5#32 { cpol := false, cpha := false, w := 8#8 } hw]; exact hi
    obtain ⟨a, b, c, d⟩ := synthesize_bits 5#32 { cpol := false, cpha := false, w := 8#8 } hw i
    have hn : decide (i < seqLength (8#8).toNat) = false := by simpa using hl
    rw [hn] at a b c d
    exact ⟨a, b, c, d⟩
  running _ := test_inTransfer_running ph ms h

/-- A state of each phase that meets the invariant, and the reset state. -/
theorem test_witness_InvariantKeptByEveryStep :
    State.reset.Inv ∧ (∃ t, step State.reset = .next t) ∧
    ∀ ph, ph ≠ Phase.idle → (inTransfer ph 1#16).Inv ∧ ∃ t, step (inTransfer ph 1#16) = .next t := by
  refine ⟨⟨by decide, by decide, by decide, by decide, by decide, ?_, ?_⟩, ⟨_, rfl⟩, fun ph hp => ⟨?_, ?_⟩⟩
  · intro i _; simp [State.reset]
  · intro h; exact absurd h (by decide)
  · exact inTransfer_inv ph 1#16 hp fun _ => by decide
  · cases ph <;> exact ⟨_, rfl⟩

theorem test_witness_FailedAccessAbortsTheTransfer :
    ∀ ph, ph = Phase.wrD ∨ ph = Phase.wrK ∨ ph = Phase.wrS ∨ ph = Phase.rd →
      (withPins (inTransfer ph 0#16) failing).Inv ∧ (withPins (inTransfer ph 0#16) failing).ph = ph ∧
      (withPins (inTransfer ph 0#16) failing).Unreset 2 ∧
      (withPins (inTransfer ph 0#16) failing).env.now.ioFault = true := by
  intro ph h
  have hp : ph ≠ .idle := by rcases h with rfl | rfl | rfl | rfl <;> decide
  have hw : ph = .wait → (0#16 : BitVec 16) ≠ 0#16 := by rcases h with rfl | rfl | rfl | rfl <;> decide
  obtain ⟨a, b, c, d, e, f, g⟩ := inTransfer_inv ph 0#16 hp hw
  refine ⟨⟨a, b, c, d, e, f, fun hb => ?_⟩, rfl, fun _ _ => rfl, rfl⟩
  obtain ⟨a, b, c, d, e, f, g, h, i, j, k, l⟩ := g hb
  exact ⟨a, b, c, d, e, f, g, h, i, j, k, l⟩

/-! The sequences. -/

/-- The largest width whose sequences fit the registers (67 bits). -/
theorem test_witness_ChipSelectString_ClockString : 0 ≤ 32 ∧ 32 ≤ 32 ∧ 2 * 32 + 3 = Config.lmax := by decide

/-- The first and the last sample position of the smallest and the largest width. -/
theorem test_witness_SamplePositionsAndLevels : 0 < 1 ∧ 0 < 32 ∧ 31 < 32 ∧ 32 ≤ 32 := by decide

theorem test_witness_SamplesMeetTheirBitForBothParameters : (0 ≤ 1 ∧ 0 < 1) ∧ (1 ≤ 1 ∧ 31 < 32) := by decide

theorem test_witness_IdleLevelsAtBothEnds : 1 ≤ 1 := by decide

/-- The first index and the last but one, for the smallest width; DataOut of the word 1 changes at 1. -/
theorem test_witness_EdgeTable :
    1 ≤ 1 ∧ 0 < 2 * 1 + 2 ∧ 3 < 2 * 1 + 2 ∧ doutSeq 1#32 false 1 (0 + 1) ≠ doutSeq 1#32 false 1 0 := by decide

/-! Whole-machine rules. -/

/-- No step, and one step that makes a Mode current. -/
theorem test_witness_IdleBlockNeverSelectsTheSlave :
    Runs 0 { State.reset with env := tiedEnv [] } { State.reset with env := tiedEnv [] } ∧
    (∃ t, Runs 1 { State.reset with env := tiedEnv [some 0x1000000008#40] } t ∧ t.cmdReadyO = true) :=
  ⟨rfl, _, rfl, rfl⟩

/-- A step that makes a Mode valid, with the smallest and with the largest width, and one that keeps it. -/
theorem test_witness_OnlyModeConfigures :
    (∃ t, ({ State.reset with env := tiedEnv [some 0x1000000001#40] } : State).env.rstAt 0 = false ∧
      step { State.reset with env := tiedEnv [some 0x1000000001#40] } = .next t ∧
      State.reset.mvalid = false ∧ t.mvalid = true) ∧
    (∃ t, step { State.reset with env := tiedEnv [some 0x1000000320#40] } = .next t ∧ t.mvalid = true) ∧
    (∃ t, step (ready false false 8#8 0#16 []) = .next t ∧ (ready false false 8#8 0#16 []).mvalid = true) :=
  ⟨⟨_, rfl, rfl, rfl, rfl⟩, ⟨_, rfl, rfl⟩, ⟨_, rfl, rfl⟩⟩

theorem test_witness_TransferSeesOneConfiguration :
    (inTransfer .rd 0#16).env.rstAt 0 = false ∧ (inTransfer .rd 0#16).busy = true ∧
    ∃ t, step (inTransfer .rd 0#16) = .next t := ⟨rfl, rfl, _, rfl⟩

/-- A step that moves on to the next index, and one that stays. -/
theorem test_witness_IndexOnlyGoesUp :
    (inTransfer .rd 0#16).Inv ∧ (inTransfer .rd 0#16).env.rstAt 0 = false ∧ (inTransfer .rd 0#16).busy = true ∧
    (∃ t, step (inTransfer .rd 0#16) = .next t ∧ t.idx = 1#7) ∧
    (inTransfer .wrD 0#16).Inv ∧ (∃ t, step (inTransfer .wrD 0#16) = .next t ∧ t.idx = 0#7) :=
  ⟨inTransfer_inv _ _ (by decide) (by decide), rfl, rfl, ⟨_, rfl, rfl⟩, inTransfer_inv _ _ (by decide) (by decide),
    ⟨_, rfl, rfl⟩⟩

theorem test_witness_OnlyMicroStepsTouchTheLines :
    (ready false false 8#8 0#16 [some 0x400000000F#40]).env.rstAt 0 = false ∧
    (ready false false 8#8 0#16 [some 0x400000000F#40]).ph = .idle ∧
    ∃ t, step (ready false false 8#8 0#16 [some 0x400000000F#40]) = .next t := ⟨rfl, rfl, _, rfl⟩

theorem test_witness_NoTwoLinesChangeAtOnce :
    (inTransfer .wrS 0#16).env.rstAt 0 = false ∧ ∃ t, step (inTransfer .wrS 0#16) = .next t := ⟨rfl, _, rfl⟩

/-- A transfer that goes on, a block that starts one, and a block that answers at once. -/
theorem test_witness_OneResponsePerCommand :
    ((inTransfer .rd 0#16).Inv ∧ (inTransfer .rd 0#16).env.rstAt 0 = false ∧ (inTransfer .rd 0#16).busy = true ∧
      ∃ t, step (inTransfer .rd 0#16) = .next t) ∧
    (({ State.reset with env := tiedEnv [some 0x2000000007#40] } : State).Inv ∧ State.reset.busy = false ∧
      (tiedEnv [some 0x2000000007#40]).pending = some 0x2000000007#40 :: [] ∧
      ∃ t, step { State.reset with env := tiedEnv [some 0x2000000007#40] } = .next t) := by
  refine ⟨⟨inTransfer_inv _ _ (by decide) (by decide), rfl, rfl, _, rfl⟩, ⟨?_, rfl, rfl, _, rfl⟩⟩
  obtain ⟨a, b, c, d, e, f, g⟩ := test_witness_InvariantKeptByEveryStep.1
  exact ⟨a, b, c, d, e, f, fun h => absurd h (by decide)⟩

theorem test_witness_EveryTransferEnds :
    (inTransfer .wrD 1#16).Inv ∧ (inTransfer .wrD 1#16).busy = true ∧ (inTransfer .wrD 1#16).Unreset 336 ∧
    (inTransfer .wrD 1#16).Prompt 336 :=
  ⟨inTransfer_inv _ _ (by decide) (by decide), rfl, fun _ _ => rfl, fun _ _ => rfl⟩

/-! The whole transfer. -/

/-- Inputs that never fail, and inputs of which the third access fails. -/
theorem test_witness_MicroStepsAgreeWithTheLoop :
    ((ready true true 8#8 3#16 []).busy = false ∧ (ready true true 8#8 3#16 []).mvalid = true ∧
      1 ≤ (ready true true 8#8 3#16 []).mode.w.toNat ∧ (ready true true 8#8 3#16 []).mode.w.toNat ≤ 32 ∧
      (0xA5#32).toNat < 2 ^ (ready true true 8#8 3#16 []).mode.w.toNat) ∧
    (ready true true 8#8 3#16 []).Unreset 336 ∧ (ready true true 8#8 3#16 []).Prompt 336 ∧
    ((∃ t, exec (.xfer 0xA5#32) (ready true true 8#8 3#16 []) = .next t) ∧
    ∃ s : State, s = { ready true true 8#8 3#16 [] with
        env := { tiedEnv [] with pins := [quiet, quiet, { quiet with ioFault := true }] } } ∧
      s.Unreset 336 ∧ s.Prompt 336 ∧ (s.env.pinsAt 2).ioFault = true) := by
  refine ⟨by decide, fun _ _ => rfl, fun _ _ => rfl, ⟨_, rfl⟩, _, rfl, fun _ _ => rfl, ?_, rfl⟩
  intro k _
  rcases k with _ | _ | _ | k <;> rfl

/-- No delay, and the widest word. -/
theorem test_witness_TransferTakesFourOrFiveStepsPerIndex :
    ((ready false false 32#8 0#16 []).busy = false ∧ (ready false false 32#8 0#16 []).mvalid = true ∧
      1 ≤ (ready false false 32#8 0#16 []).mode.w.toNat ∧ (ready false false 32#8 0#16 []).mode.w.toNat ≤ 32 ∧
      (0xFFFFFFFF#32).toNat < 2 ^ (ready false false 32#8 0#16 []).mode.w.toNat) ∧
    (∀ n, (ready false false 32#8 0#16 []).Unreset n) ∧
    (∀ c n, (ready false false 32#8 0#16 []).Answers c n) ∧
    ((ready true true 1#8 9#16 []).delayMs ≠ 0#16 ∧ ∀ c n, (ready true true 1#8 9#16 []).Answers c n) :=
  ⟨by decide, fun _ _ _ => rfl, fun _ _ _ _ => ⟨fun _ => rfl, fun _ => rfl⟩, by decide,
    fun _ _ _ _ => ⟨fun _ => rfl, fun _ => rfl⟩⟩

theorem ready_inv (cpol cpha : Level) (w : BitVec 8) (ms : BitVec 16) (ws : List (Option CmdWord))
    (h : 1 ≤ w.toNat ∧ w.toNat ≤ 32) : (ready cpol cpha w ms ws).Inv where
  busy := ⟨fun hb => absurd hb (by simp [ready, State.reset]), fun hp => absurd rfl hp⟩
  width _ := h
  deselected _ := rfl
  idx := (by decide : (0#7).toNat < 67)
  len := (by decide : (0#7).toNat ≤ 67)
  above i _ := by simp [ready, State.reset]
  running hb := absurd hb (by simp [ready, State.reset])

/-- The last read of a transfer. -/
theorem test_witness_CompletedTransferEndState :
    ∃ s t : State, s.Inv ∧ s.busy = true ∧ step s = .next t ∧ t.busy = false ∧ t.rxvalid = true := by
  refine ⟨{ atIndex 18#7 (inTransfer .rd 0#16) with rx := 5#32 }, _, ?_, rfl, rfl, rfl, rfl⟩
  obtain ⟨a, b, c, _, e, f, g⟩ := inTransfer_inv .rd 0#16 (by decide) (by decide)
  refine ⟨a, b, fun h => absurd h (by decide), by decide, e, f, fun hb => ?_⟩
  obtain ⟨m1, m2, m3, m4, _, m6, _, _, _, _, _, _⟩ := g hb
  exact ⟨m1, m2, m3, m4, by decide, m6, by decide, fun _ => by decide, fun _ => by decide, fun _ => by decide,
    by decide, by decide⟩

/-- Is the block busy after k steps? -/
def busyAfter (k : Nat) (t : State) : Bool :=
  match Host.Core.run Sys2Proof.core k t with
  | .next v => v.busy
  | .fault _ => false
  | .refused _ => false

theorem busyAfter_runs {k : Nat} {t v : State} (h : Runs k t v) (hb : busyAfter k t = true) : v.busy = true := by
  unfold Runs at h
  unfold busyAfter at hb
  rw [h] at hb
  exact hb

/-- The first access fails: two steps and the transfer has ended. -/
theorem test_witness_TransferCounts_aborted :
    ∃ s t u : State, s.Inv ∧ EndsIn 1#32 s t 2 u ∧ u.lasterr = .portError := by
  refine ⟨withPins (ready false false 1#8 0#16 []) failing, _, _, ?_, ⟨rfl, rfl, rfl, ?_, rfl, rfl⟩, rfl⟩
  · obtain ⟨a, b, c, d, e, f, _⟩ := ready_inv false false 1#8 0#16 [] (by decide)
    exact ⟨a, b, c, d, e, f, fun h => absurd h (by decide)⟩
  · intro k v hk hr
    refine busyAfter_runs hr ?_
    rcases k with _ | _ | k
    · rfl
    · rfl
    · omega

/-- A transfer of one bit in loopback completes after 20 steps: what the four statements about a completed transfer ask
of the states, for the two wirings together. -/
theorem test_witness_CompletedTransfer :
    ∀ wi, wi = Wiring.slave ∨ wi = Wiring.loopback → ∃ s t u : State,
      s.env.wiring = wi ∧ s.Inv ∧ EndsIn 1#32 s t 20 u ∧ u.rxvalid = true ∧ s.Unreset 20 ∧
      u.lasterr ≠ .portError := by
  have hi : ∀ wi, ({ ready false false 1#8 0#16 [] with env := { tiedEnv [] with wiring := wi } } : State).Inv := by
    intro wi
    obtain ⟨a, b, c, d, e, f, _⟩ := ready_inv false false 1#8 0#16 [] (by decide)
    exact ⟨a, b, c, d, e, f, fun h => absurd h (by simp [ready, State.reset])⟩
  have hb : ∀ wi, ∀ k : Fin 20, busyAfter k.val
      (({ ready false false 1#8 0#16 [] with env := { tiedEnv [] with wiring := wi } } : State).xferStep 1#32) =
        true := by
    intro wi; cases wi <;> decide
  rintro wi (rfl | rfl)
  · exact ⟨{ ready false false 1#8 0#16 [] with env := { tiedEnv [] with wiring := .slave } }, _, _, rfl, hi _,
      ⟨rfl, rfl, rfl, fun k _ hk hr => busyAfter_runs hr (hb .slave ⟨k, hk⟩), rfl, rfl⟩, rfl, fun _ _ => rfl,
      ne_of_eq_of_ne (b := Status.ok) rfl (by decide)⟩
  · exact ⟨{ ready false false 1#8 0#16 [] with env := { tiedEnv [] with wiring := .loopback } }, _, _, rfl, hi _,
      ⟨rfl, rfl, rfl, fun k _ hk hr => busyAfter_runs hr (hb .loopback ⟨k, hk⟩), rfl, rfl⟩, rfl, fun _ _ => rfl,
      ne_of_eq_of_ne (b := Status.ok) rfl (by decide)⟩

/-- A response on the port. -/
theorem test_witness_BusesShowTheRegisters :
    ∃ s : State, s.rsp = some 0x500000000#35 ∧ s.rspWordO = 0x500000000#35 :=
  ⟨State.reset.raise .illegalCommand, rfl, rfl⟩

/-- R26, R28: the position register in WAIT (5) at index 66. -/
theorem test_pos_bus : (atIndex 66#7 (inTransfer .wait 1#16)).posO = 0b1011000010#10 := by decide

end Sys2Proof.Tests
end

section
/-! PROOFS, family 10_state. The micro-steps by cases: what the read and `advance()` can do, and how far IDX moves. -/

namespace Sys2Proof.Machine

/-- The read micro-step takes the level and waits or advances, or goes to ABORT (R176, R181). -/
theorem microRd_cases (p : Pins) (s : State) :
    (∃ e v, microRd p s = ((s.record e).takeLevel v).waitOrAdvance) ∨
    (∃ e, microRd p s = { s.record e with ph := .abort }) := by
  unfold microRd
  rcases s.pinRead_cases p with ⟨_, h⟩ | ⟨_, h⟩ <;> rw [h]
  · exact .inl ⟨_, _, rfl⟩
  · exact .inr ⟨_, rfl⟩

/-- The wait goes on, or it is over and the engine advances (R178). -/
theorem microWait_cases (p : Pins) (s : State) :
    microWait p s = s ∨ ∃ e, microWait p s = (s.record e).advance := by
  unfold microWait
  split
  · exact .inr ⟨_, rfl⟩
  · exact .inl rfl

/-- From `s` to `t` IDX stays, or goes up by one below the last index, to WR_D (R179). -/
def IndexStep (s t : State) : Prop :=
  t.idx = s.idx ∨ (s.idx ≠ s.seq.len - 1#7 ∧ t.idx = s.idx + 1#7 ∧ t.ph = .wrD)

theorem advance_indexStep (s : State) : IndexStep s s.advance := by
  rcases s.advance_cases with ⟨_, h⟩ | ⟨hn, h⟩ <;> rw [h]
  · exact .inl rfl
  · exact .inr ⟨hn, rfl, rfl⟩

theorem waitOrAdvance_indexStep (s : State) : IndexStep s s.waitOrAdvance := by
  rcases s.waitOrAdvance_cases with ⟨_, h⟩ | ⟨_, h⟩ <;> rw [h]
  · exact advance_indexStep s
  · exact .inl rfl

theorem writeStep_idx (s : State) (p : Pins) (l : OutLine) (v : Level) (ph : Phase) :
    (s.writeStep p l v ph).idx = s.idx := by
  rcases s.writeStep_cases p l v ph with ⟨_, h⟩ | ⟨_, h⟩ <;> rw [h]
  · exact State.setOut_idx s l v
  · rfl

theorem microStep_indexStep (p : Pins) (s : State) : IndexStep s (microStep p s) := by
  cases hph : s.ph with simp only [microStep, hph]
  | idle => exact .inl rfl
  | wrD => exact .inl (writeStep_idx ..)
  | wrK => exact .inl (writeStep_idx ..)
  | wrS => exact .inl (writeStep_idx ..)
  | rd =>
    rcases microRd_cases p s with ⟨e, v, h⟩ | ⟨e, h⟩ <;> rw [h]
    · simpa [IndexStep, State.record] using waitOrAdvance_indexStep ((s.record e).takeLevel v)
    · exact .inl rfl
  | wait =>
    rcases microWait_cases p s with h | ⟨e, h⟩ <;> rw [h]
    · exact .inl rfl
    · exact advance_indexStep (s.record e)
  | abort => exact .inl rfl

end Sys2Proof.Machine
end

section
/-! PROOFS, family 10_state. The invariant in two halves: what is to hold at rest, and what in a transfer. -/

namespace Sys2Proof.Machine

/-- The bits from SEQLEN up are 0, and SEQLEN is at most LMAX (R36). -/
def SeqRegs.Padded (q : SeqRegs) : Prop :=
  q.len.toNat ≤ Config.lmax ∧ ∀ i, q.len.toNat ≤ i →
    q.cs.getLsbD i = false ∧ q.ck.getLsbD i = false ∧ q.dout.getLsbD i = false ∧ q.tr.getLsbD i = false

theorem synthesize_padded (d : DataWord) {m : Mode} (hw : m.w.toNat ≤ 32) : (synthesize d m).Padded := by
  have hlen := synthesize_len d m hw
  refine ⟨hlen ▸ seqLength_le hw, fun i hi => ?_⟩
  have hn : decide (i < seqLength m.w.toNat) = false := by simpa [hlen] using hi
  simpa only [hn, Bool.false_and] using synthesize_bits d m hw i

/-- The invariant of a block that is ready for a command. -/
structure State.Resting (s : State) : Prop where
  busy : s.busy = false
  ph : s.ph = .idle
  width : s.mvalid = true → 1 ≤ s.mode.w.toNat ∧ s.mode.w.toNat ≤ Config.wmax
  deselected : s.outCsn = true
  idx : s.idx.toNat < Config.lmax
  seq : s.seq.Padded

theorem State.Resting.inv {s : State} (h : s.Resting) : s.Inv where
  busy := by simp [h.busy, h.ph]
  width := h.width
  deselected _ := h.deselected
  idx := h.idx
  len := h.seq.1
  above := h.seq.2
  running hb := absurd (h.busy.symm.trans hb) (by decide)

theorem State.Inv.resting {s : State} (h : s.Inv) (hb : s.busy = false) : s.Resting where
  busy := hb
  ph := by simpa [hb] using h.busy
  width := h.width
  deselected := h.deselected hb
  idx := h.idx
  seq := ⟨h.len, h.above⟩

/-- The invariant of a transfer in progress; what State.Inv says of IDX and the registers then follows. -/
theorem State.Running.inv {s : State} (r : s.Running) (hb : s.busy = true) (hp : s.ph ≠ .idle)
    (hw : 1 ≤ s.mode.w.toNat ∧ s.mode.w.toNat ≤ 32) : s.Inv where
  busy := by simp [hb, hp]
  width _ := hw
  deselected hn := absurd (hb.symm.trans hn) (by decide)
  idx := lt_of_lt_of_le r.idx (seqLength_le hw.2)
  len := r.seq ▸ (synthesize_padded s.tx hw.2).1
  above := r.seq ▸ (synthesize_padded s.tx hw.2).2
  running _ := r

theorem resting_reset (e : Env) : ({ State.reset with env := e } : State).Resting where
  busy := rfl
  ph := rfl
  width h := absurd h Bool.false_ne_true
  deselected := rfl
  idx := (by decide : (0#7).toNat < 67)
  seq := ⟨Nat.zero_le _, fun _ _ => by simp [State.reset]⟩

end Sys2Proof.Machine
end

section
/-! PROOFS, family 10_state. Steps outside a transfer: they touch no line and keep the invariant. -/

namespace Sys2Proof.Machine

theorem modeStep_cases (s : State) (cpol cpha : Level) (w : BitVec 8) :
    (widthLegal w = true ∧ s.modeStep cpol cpha w =
      State.finish { s with mode := { cpol := cpol, cpha := cpha, w := w }, mvalid := true } .ok 0#32) ∨
    s.modeStep cpol cpha w = s.raise .invalidConfiguration := by
  unfold State.modeStep
  split
  · exact .inl ⟨by assumption, rfl⟩
  · exact .inr rfl

theorem synthStep_ok {s : State} {d : DataWord} (hm : s.mvalid = true) (hd : d.toNat < 2 ^ s.mode.w.toNat) :
    s.synthStep d = (s.loadWord d).finish .ok (BitVec.ofNat 32 (seqLength s.mode.w.toNat)) := by
  rw [State.synthStep, wordError_none hm hd]

theorem xferStep_ok {s : State} {d : DataWord} (hm : s.mvalid = true) (hd : d.toNat < 2 ^ s.mode.w.toNat) :
    s.xferStep d =
      { s.loadWord d with rx := 0#32, rxvalid := false, busy := true, idx := 0#7, ph := .wrD } := by
  rw [State.xferStep, wordError_none hm hd]

/-- SYNTH of a word in range, with the Mode set, in a block that is ready (R152). -/
theorem exec_synth_ok {s : State} {d : DataWord} (hb : s.busy = false) (hm : s.mvalid = true)
    (hd : d.toNat < 2 ^ s.mode.w.toNat) : exec (.synth d) s =
      .next ((s.loadWord d).finish .ok (BitVec.ofNat 32 (seqLength s.mode.w.toNat))) := by
  rw [exec_ready (.synth d) hb, acceptStep, synthStep_ok hm hd]

/-- XFER of a word in range, with the Mode set, in a block that is ready (R171). -/
theorem exec_xfer_ok {s : State} {d : DataWord} (hb : s.busy = false) (hm : s.mvalid = true)
    (hd : d.toNat < 2 ^ s.mode.w.toNat) : exec (.xfer d) s = .next
      { s.loadWord d with rx := 0#32, rxvalid := false, busy := true, idx := 0#7, ph := .wrD } := by
  rw [exec_ready (.xfer d) hb, acceptStep, xferStep_ok hm hd]

/-- SYNTH answers an error, or loads the word and answers L (R152). -/
theorem synthStep_cases (s : State) (d : DataWord) :
    (∃ e, s.synthStep d = s.raise e) ∨
    (s.mvalid = true ∧ d.toNat < 2 ^ s.mode.w.toNat ∧
      s.synthStep d = (s.loadWord d).finish .ok (BitVec.ofNat 32 (seqLength s.mode.w.toNat))) := by
  rcases s.wordError_cases d with ⟨_, h⟩ | ⟨_, _, h⟩ | ⟨hm, hd, _⟩
  · exact .inl ⟨.noMode, by rw [State.synthStep, h]⟩
  · exact .inl ⟨.valueOutOfRange, by rw [State.synthStep, h]⟩
  · exact .inr ⟨hm, hd, synthStep_ok hm hd⟩

/-- XFER answers an error, or starts a transfer (R171). -/
theorem xferStep_cases (s : State) (d : DataWord) :
    (∃ e, s.xferStep d = s.raise e) ∨
    (s.mvalid = true ∧ d.toNat < 2 ^ s.mode.w.toNat ∧ s.xferStep d =
      { s.loadWord d with rx := 0#32, rxvalid := false, busy := true, idx := 0#7, ph := .wrD }) := by
  rcases s.wordError_cases d with ⟨_, h⟩ | ⟨_, _, h⟩ | ⟨hm, hd, _⟩
  · exact .inl ⟨.noMode, by rw [State.xferStep, h]⟩
  · exact .inl ⟨.valueOutOfRange, by rw [State.xferStep, h]⟩
  · exact .inr ⟨hm, hd, xferStep_ok hm hd⟩

/-- The output registers and the history of accesses are the same in both states (R39, R75). -/
def KeepsLines (s t : State) : Prop :=
  t.outMosi = s.outMosi ∧ t.outSclk = s.outSclk ∧ t.outCsn = s.outCsn ∧ t.events = s.events

theorem acceptStep_keepsLines (i : Instr) (s : State) : KeepsLines s (acceptStep i s) := by
  cases i with
  | mode cpol cpha w =>
    rcases modeStep_cases s cpol cpha w with ⟨_, h⟩ | h <;> rw [acceptStep, h] <;> exact ⟨rfl, rfl, rfl, rfl⟩
  | delay ms => exact ⟨rfl, rfl, rfl, rfl⟩
  | synth d =>
    rcases synthStep_cases s d with ⟨_, h⟩ | ⟨_, _, h⟩ <;> rw [acceptStep, h] <;> exact ⟨rfl, rfl, rfl, rfl⟩
  | xfer d =>
    rcases xferStep_cases s d with ⟨_, h⟩ | ⟨_, _, h⟩ <;> rw [acceptStep, h] <;> exact ⟨rfl, rfl, rfl, rfl⟩

theorem State.Resting.tick {s : State} (h : s.Resting) : s.tick.Resting := { h with }

theorem State.Resting.presented {s : State} (h : s.Resting) (rest : List (Option CmdWord)) :
    (s.presented rest).Resting := { h with }

theorem State.Resting.raise {s : State} (h : s.Resting) (e : Status) : (s.raise e).Resting := { h with }

theorem State.Resting.modeStep {s : State} (h : s.Resting) (cpol cpha : Level) (w : BitVec 8) :
    (s.modeStep cpol cpha w).Resting := by
  rcases modeStep_cases s cpol cpha w with ⟨hw, e⟩ | e <;> rw [e]
  · exact { h with width := fun _ => (widthLegal_iff w).mp hw }
  · exact h.raise _

theorem State.Resting.synthStep {s : State} (h : s.Resting) (d : DataWord) : (s.synthStep d).Resting := by
  rcases synthStep_cases s d with ⟨_, e⟩ | ⟨hm, _, e⟩ <;> rw [e]
  · exact h.raise _
  · exact { h with seq := synthesize_padded d (h.width hm).2 }

/-- A transfer begins at index 0 with chip select inactive, which is the element of index 0. -/
theorem State.Resting.xferStep_inv {s : State} (h : s.Resting) (d : DataWord) : (s.xferStep d).Inv := by
  rcases xferStep_cases s d with ⟨_, e⟩ | ⟨hm, hd, e⟩ <;> rw [e]
  · exact (h.raise _).inv
  · refine State.Running.inv ?_ rfl nofun (h.width hm)
    exact {
      mvalid := hm
      seqvalid := rfl
      inRange := hd
      seq := rfl
      idx := Nat.succ_pos _
      rxvalid := rfl
      delay := by simp
      mosi := by simp
      sclk := by simp
      csn := by simp
      csnBefore := fun _ => h.deselected
      rx := Nat.two_pow_pos _ }

theorem State.Resting.acceptStep_inv {s : State} (h : s.Resting) (i : Instr) : (acceptStep i s).Inv := by
  cases i with
  | mode cpol cpha w => exact (h.modeStep cpol cpha w).inv
  | delay ms => exact State.Resting.inv { h with }
  | synth d => exact (h.synthStep d).inv
  | xfer d => exact h.xferStep_inv d

end Sys2Proof.Machine
end

section
/-! PROOFS, family 10_state. The micro-steps keep the invariant of a transfer. -/

namespace Sys2Proof.Machine

theorem csSeq_last (w : Nat) : csSeq w (2 * w + 2) = true := by
  simp [csSeq, Config.csActive]

/-- IDX plus one does not wrap below the last index. -/
theorem idx_succ {s : State} (hw : s.mode.w.toNat ≤ 32) (hs : s.seq = synthesize s.tx s.mode)
    (hi : s.idx.toNat < seqLength s.mode.w.toNat) (hn : s.idx ≠ s.seq.len - 1#7) :
    (s.idx + 1#7).toNat = s.idx.toNat + 1 ∧ s.idx.toNat < 2 * s.mode.w.toNat + 2 := by
  have hlast := len_sub_one hw hs
  have hne : s.idx.toNat ≠ (s.seq.len - 1#7).toNat := fun h => hn (BitVec.eq_of_toNat_eq h)
  unfold seqLength at hi
  rw [BitVec.toNat_add, BitVec.toNat_ofNat]
  omega

/-- What holds in a transfer says nothing of the inputs and the response pulse. -/
theorem State.Running.tick {s : State} (r : s.Running) : s.tick.Running := { r with }

/-- What holds in a transfer says nothing of the history. -/
theorem State.Running.record {s : State} (r : s.Running) (e : Event) : (s.record e).Running := { r with }

/-- Outside WAIT the read of IDX is still to come, and RX holds the samples below IDX. -/
theorem State.Running.rx_lt {s : State} (r : s.Running) (hp : s.ph ≠ .wait) :
    s.rx.toNat < 2 ^ samplesBelow s.mode s.idx.toNat := by
  simpa [State.indicesRead, hp] using r.rx

/-- A failed access leads to ABORT, where nothing is said of the lines (R181). -/
theorem State.Running.failed {s : State} (r : s.Running) (hp : s.ph ≠ .wait) :
    ({ s with ph := .abort } : State).Running :=
  { r with
    delay := by simp
    mosi := by simp
    sclk := by simp
    csn := by simp
    csnBefore := by simp
    rx := r.rx_lt hp }

/-- The level read at IDX is one more sample exactly when the trigger is set there (R176, R177). -/
theorem State.Running.takeLevel_rx_lt {s : State} (r : s.Running) (hw : s.mode.w.toNat ≤ 32) (hp : s.ph ≠ .wait)
    (v : Level) : (s.takeLevel v).rx.toNat < 2 ^ samplesBelow s.mode (s.idx.toNat + 1) := by
  obtain ⟨_, _, _, htr⟩ := r.elem_eq hw
  rw [samplesBelow_succ, ← htr]
  unfold State.takeLevel
  split
  · exact sample_lt s v _ (r.rx_lt hp)
  · exact r.rx_lt hp

/-- Once IDX is read, WAIT may follow when a delay is configured (R178). -/
theorem State.Running.waiting {s : State} (r : s.Running) (hp : s.ph = .rd) (hd : s.delayMs ≠ 0#16) {x : DataWord}
    (hx : x.toNat < 2 ^ samplesBelow s.mode (s.idx.toNat + 1)) :
    ({ s with rx := x, ph := .wait } : State).Running :=
  { r with
    delay := fun _ => hd
    mosi := fun _ => r.mosi (by simp [hp])
    sclk := fun _ => r.sclk (by simp [hp])
    csn := fun _ => r.csn (.inl hp)
    csnBefore := by simp
    rx := hx }

/-- The abort forces chip select inactive (R182). -/
theorem State.Running.microAbort_resting {s : State} (r : s.Running)
    (hw : 1 ≤ s.mode.w.toNat ∧ s.mode.w.toNat ≤ 32) : (microAbort s).Resting where
  busy := rfl
  ph := rfl
  width _ := hw
  deselected := rfl
  idx := lt_of_lt_of_le r.idx (seqLength_le hw.2)
  seq := (r.seq ▸ synthesize_padded s.tx hw.2 : s.seq.Padded)

/-! Each micro-step leads from a transfer in progress, under a legal width, to a state that meets the invariant. -/

section
variable {s : State} (r : s.Running) (hb : s.busy = true) (hw : 1 ≤ s.mode.w.toNat ∧ s.mode.w.toNat ≤ 32)
include r hb hw

/-- A write micro-step keeps the invariant when the transfer goes on from the line written (R173 to R175, R181). -/
theorem State.Running.writeStep_inv (hp : s.ph ≠ .wait) (p : Pins) {l : OutLine} {v : Level} {ph : Phase}
    (hph : ph ≠ .idle) (hok : ({ s.setOut l v with ph := ph } : State).Running) : (s.writeStep p l v ph).Inv := by
  rcases s.writeStep_cases p l v ph with ⟨_, h⟩ | ⟨_, h⟩ <;> rw [h]
  · refine (hok.record _).inv ?_ hph ?_
    · exact (State.setOut_busy s l v).trans hb
    · simpa [State.record] using hw
  · exact ((r.record _).failed hp).inv hb nofun hw

theorem State.Running.microWrD_inv (hp : s.ph = .wrD) (p : Pins) : (microWrD p s).Inv := by
  have hnw : s.ph ≠ .wait := by simp [hp]
  obtain ⟨hdo, _, _, _⟩ := r.elem_eq hw.2
  refine r.writeStep_inv hb hw hnw p nofun ?_
  exact { r with
    delay := by simp
    mosi := fun _ => hdo
    sclk := by simp
    csn := by simp
    csnBefore := fun _ => r.csnBefore (by simp [hp])
    rx := r.rx_lt hnw }

theorem State.Running.microWrK_inv (hp : s.ph = .wrK) (p : Pins) : (microWrK p s).Inv := by
  have hnw : s.ph ≠ .wait := by simp [hp]
  obtain ⟨_, hck, _, _⟩ := r.elem_eq hw.2
  refine r.writeStep_inv hb hw hnw p nofun ?_
  exact { r with
    delay := by simp
    mosi := fun _ => r.mosi (by simp [hp])
    sclk := fun _ => hck
    csn := by simp
    csnBefore := fun _ => r.csnBefore (by simp [hp])
    rx := r.rx_lt hnw }

theorem State.Running.microWrS_inv (hp : s.ph = .wrS) (p : Pins) : (microWrS p s).Inv := by
  have hnw : s.ph ≠ .wait := by simp [hp]
  obtain ⟨_, _, hcs, _⟩ := r.elem_eq hw.2
  refine r.writeStep_inv hb hw hnw p nofun ?_
  exact { r with
    delay := by simp
    mosi := fun _ => r.mosi (by simp [hp])
    sclk := fun _ => r.sclk (by simp [hp])
    csn := fun _ => hcs
    csnBefore := by simp
    rx := r.rx_lt hnw }

/-- Once IDX is read and its chip-select element is on the line, `advance()` goes to the next index or ends the transfer
with chip select inactive, which is the last element (R179, R180, R186). -/
theorem State.Running.advance_inv (hcs : s.outCsn = csSeq s.mode.w.toNat s.idx.toNat) {x : DataWord}
    (hx : x.toNat < 2 ^ samplesBelow s.mode (s.idx.toNat + 1)) : ({ s with rx := x } : State).advance.Inv := by
  rcases State.advance_cases { s with rx := x } with ⟨hlast, h⟩ | ⟨hn, h⟩ <;> rw [h]
  · have hidx : s.idx.toNat = 2 * s.mode.w.toNat + 2 := by rw [← len_sub_one hw.2 r.seq]; exact congrArg _ hlast
    refine State.Resting.inv ?_
    exact {
      busy := rfl
      ph := rfl
      width := fun _ => hw
      deselected := by simpa [State.complete, hcs, hidx] using csSeq_last s.mode.w.toNat
      idx := lt_of_lt_of_le r.idx (seqLength_le hw.2)
      seq := r.seq ▸ synthesize_padded s.tx hw.2 }
  · obtain ⟨hsucc, hlt⟩ := idx_succ hw.2 r.seq r.idx hn
    refine State.Running.inv ?_ hb nofun hw
    exact { r with
      idx := by simp only [hsucc, seqLength]; omega
      delay := by simp
      mosi := by simp
      sclk := by simp
      csn := by simp
      csnBefore := fun _ => by simpa [hsucc] using hcs
      rx := by simpa [State.indicesRead, hsucc] using hx }

theorem State.Running.microRd_inv (hp : s.ph = .rd) (p : Pins) : (microRd p s).Inv := by
  have hnw : s.ph ≠ .wait := by simp [hp]
  rcases microRd_cases p s with ⟨e, v, h⟩ | ⟨e, h⟩ <;> rw [h]
  · have hx := (r.record e).takeLevel_rx_lt hw.2 hnw v
    rw [takeLevel_eq]
    rcases State.waitOrAdvance_cases { s.record e with rx := ((s.record e).takeLevel v).rx } with ⟨_, h⟩ | ⟨hd, h⟩ <;>
      rw [h]
    · exact (r.record e).advance_inv hb hw (r.csn (.inl hp)) hx
    · exact ((r.record e).waiting hp hd hx).inv hb nofun hw
  · exact ((r.record e).failed hnw).inv hb nofun hw

/-- In WAIT the bound on RX already counts the read of IDX. -/
theorem State.Running.microWait_inv (hp : s.ph = .wait) (p : Pins) : (microWait p s).Inv := by
  rcases microWait_cases p s with h | ⟨e, h⟩ <;> rw [h]
  · exact r.inv hb (by simp [hp]) hw
  · exact (r.record e).advance_inv hb hw (r.csn (.inr hp)) (by simpa [State.indicesRead, hp] using r.rx)

theorem State.Running.microStep_inv (hp : s.ph ≠ .idle) (p : Pins) : (microStep p s).Inv := by
  cases hph : s.ph with
  | idle => exact absurd hph hp
  | wrD => simpa only [microStep, hph] using r.microWrD_inv hb hw hph p
  | wrK => simpa only [microStep, hph] using r.microWrK_inv hb hw hph p
  | wrS => simpa only [microStep, hph] using r.microWrS_inv hb hw hph p
  | rd => simpa only [microStep, hph] using r.microRd_inv hb hw hph p
  | wait => simpa only [microStep, hph] using r.microWait_inv hb hw hph p
  | abort => simpa only [microStep, hph] using (r.microAbort_resting hw).inv

end

end Sys2Proof.Machine
end

section
/-! PROOFS, family 10_state. The whole step keeps the invariant, and so does every run. -/

namespace Sys2Proof.Machine

theorem hardReset_inv (s : State) : s.hardReset.Inv :=
  State.Resting.inv { resting_reset s.env.tick with }

theorem State.Inv.microStep_inv {s : State} (h : s.Inv) (hp : s.ph ≠ .idle) (p : Pins) : (microStep p s.tick).Inv := by
  have hb : s.busy = true := h.busy.mpr hp
  have r : s.Running := h.running hb
  exact r.tick.microStep_inv hb (h.width r.mvalid) hp p

/-- Every step keeps the invariant: a step at rest, a micro-step, a reset. -/
theorem State.Inv.step_inv {s t : State} (h : s.Inv) (hst : step s = .next t) : t.Inv := by
  rcases step_cases hst with ⟨_, rfl⟩ | ⟨_, hp, rfl⟩ | ⟨_, _, hb, _, rest, i, _, _, rfl⟩ |
    ⟨_, _, hb, _, rest, _, _, _, rfl⟩ | ⟨_, _, hb, rest, _, rfl⟩ | ⟨_, hp, _, rfl⟩
  · exact hardReset_inv s
  · exact h.microStep_inv hp _
  · exact ((h.resting hb).tick.presented rest).acceptStep_inv i
  · exact (((h.resting hb).tick.presented rest).raise _).inv
  · exact ((h.resting hb).tick.presented rest).inv
  · have hb : s.busy = false := by simpa [hp] using h.busy
    exact (h.resting hb).tick.inv

theorem runs_zero_iff {s t : State} : Runs 0 s t ↔ s = t := by
  simp [Runs, Host.Core.run, core]

theorem runs_succ_iff {n : Nat} {s t : State} : Runs (n + 1) s t ↔ ∃ u, step s = .next u ∧ Runs n u t := by
  cases h : step s <;> simp [Runs, Host.Core.run, core, h]

/-- What every step keeps, every run keeps. -/
theorem Runs.keeps {P : State → Prop} (hstep : ∀ s t, P s → step s = .next t → P t) {n : Nat} {s t : State}
    (h : Runs n s t) (hs : P s) : P t := by
  induction n generalizing s with
  | zero => exact runs_zero_iff.mp h ▸ hs
  | succ n ih =>
    obtain ⟨u, hu, hr⟩ := runs_succ_iff.mp h
    exact ih hr (hstep s u hs hu)

end Sys2Proof.Machine
end

section
/-! PROOFS, family 10_state. The observation buses: the fields of an assembled register. -/

namespace Sys2Proof.Machine

/-- STATUS grows from LASTERR by one bit at a time (R25). -/
theorem statusBits_eq_concat (s : State) : s.statusBits =
    ((((s.lasterr.code).concat s.seqvalid).concat s.rxvalid).concat s.mvalid).concat s.busy := rfl

/-- The fields of STATUS (R25). -/
theorem statusBits_fields (s : State) :
    s.statusBits.getLsbD 0 = s.busy ∧ s.statusBits.getLsbD 1 = s.mvalid ∧ s.statusBits.getLsbD 2 = s.rxvalid ∧
    s.statusBits.getLsbD 3 = s.seqvalid ∧ s.statusBits.extractLsb' 4 3 = s.lasterr.code := by
  rw [statusBits_eq_concat]
  refine ⟨BitVec.getLsbD_concat_zero, ?_, ?_, ?_, ?_⟩
  · rw [BitVec.getLsbD_concat_succ, BitVec.getLsbD_concat_zero]
  · rw [BitVec.getLsbD_concat_succ, BitVec.getLsbD_concat_succ, BitVec.getLsbD_concat_zero]
  · simp only [BitVec.getLsbD_concat_succ, BitVec.getLsbD_concat_zero]
  · apply BitVec.eq_of_getLsbD_eq
    intro i hi
    rw [BitVec.getLsbD_extractLsb', Nat.add_comm 4 i]
    simp [hi, BitVec.getLsbD_concat_succ]

/-- POS: IDX below PH (R26). -/
theorem posBits_fields (s : State) :
    s.posBits.extractLsb' 0 7 = s.idx ∧ s.posBits.extractLsb' 7 3 = s.ph.code := by
  exact ⟨BitVec.extractLsb'_append_eq_right, BitVec.extractLsb'_append_eq_left⟩

/-- MODE: W below CPHA and CPOL (R22). -/
theorem modeBits_fields (m : Mode) :
    m.bits.extractLsb' 0 8 = m.w ∧ m.bits.getLsbD 8 = m.cpha ∧ m.bits.getLsbD 9 = m.cpol := by
  have hbits : m.bits = ((BitVec.ofBool m.cpol).concat m.cpha) ++ m.w := rfl
  rw [hbits]
  refine ⟨BitVec.extractLsb'_append_eq_right, ?_, ?_⟩
  · rw [BitVec.getLsbD_append]
    exact BitVec.getLsbD_concat_zero
  · rw [BitVec.getLsbD_append]
    exact BitVec.getLsbD_concat_succ.trans (by simp)

end Sys2Proof.Machine
end

section
/-! PROOFS, family 10_state. The obligations. -/

open Sys2Proof Sys2Proof.Machine

/-- Settles O1: every element of the reset state is a literal of the table. -/
theorem resetLeavesTheTableValues : Obligations.ResetLeavesTheTableValues := by
  unfold Obligations.ResetLeavesTheTableValues
  decide

/-- Settles O39: the reset state is at rest. -/
theorem invariantAtReset : Obligations.InvariantAtReset :=
  fun e => (resting_reset e).inv

/-- Settles O40, by the kinds of step: a step at rest keeps State.Resting or starts a transfer, a micro-step keeps
State.Running or ends at rest. -/
theorem invariantKeptByEveryStep : Obligations.InvariantKeptByEveryStep :=
  fun _ _ h hst => h.step_inv hst

/-- Settles O41, by induction on the run: the invariant holds at reset and every step keeps it. -/
theorem idleBlockNeverSelectsTheSlave : Obligations.IdleBlockNeverSelectsTheSlave := by
  intro e n t hr
  have ht : t.Inv := hr.keeps (fun _ _ h hst => h.step_inv hst) (resting_reset e).inv
  exact ⟨ht, fun hready => ht.deselected (by simpa [State.cmdReadyO] using hready)⟩

/-- Settles O43: while BUSY = 1 a step without reset is a micro-step, which keeps the settings, or an idle step. -/
theorem transferSeesOneConfiguration : Obligations.TransferSeesOneConfiguration := by
  intro s t hr hb hst
  rcases step_cases hst with ⟨hr', _⟩ | ⟨_, _, rfl⟩ | ⟨_, _, hb', _⟩ | ⟨_, _, hb', _⟩ | ⟨_, _, hb', _⟩ |
    ⟨_, _, _, rfl⟩
  · simp [hr] at hr'
  · obtain ⟨mode, mvalid, delayMs, tx, seq, seqvalid, _⟩ := microStep_keepsSettings s.env.now s.tick
    exact ⟨mode, mvalid, delayMs, tx, seq, seqvalid⟩
  · simp [hb] at hb'
  · simp [hb] at hb'
  · simp [hb] at hb'
  · exact ⟨rfl, rfl, rfl, rfl, rfl, rfl⟩

/-- Settles O44: IDX moves only in `advance()`, and there only below the last index. -/
theorem indexOnlyGoesUp : Obligations.IndexOnlyGoesUp := by
  intro s t h hr hb hst
  have r : s.Running := h.running hb
  have hw : s.mode.w.toNat ≤ 32 := (h.width r.mvalid).2
  have hidx : s.idx.toNat < 2 * s.mode.w.toNat + 3 := r.idx
  rw [step_micro hr (h.busy.mp hb)] at hst
  obtain rfl : microStep s.env.now s.tick = t := by simpa using hst
  rcases microStep_indexStep s.env.now s.tick with heq | ⟨hn, heq, hph⟩
  · refine ⟨.inl heq, ?_⟩
    rw [heq, State.tick_idx]
    omega
  · obtain ⟨hsucc, hlt⟩ := idx_succ hw r.seq r.idx hn
    refine ⟨.inr ⟨heq ▸ hsucc, hph⟩, ?_⟩
    rw [heq, State.tick_idx, hsucc]
    omega

/-- Settles O45: with PH = IDLE a step without reset accepts a command, answers an illegal word, or does nothing. -/
theorem onlyMicroStepsTouchTheLines : Obligations.OnlyMicroStepsTouchTheLines := by
  intro s t hr hp hst
  rcases step_cases hst with ⟨hr', _⟩ | ⟨_, hp', _⟩ | ⟨_, _, _, _, rest, i, _, _, rfl⟩ |
    ⟨_, _, _, _, _, _, _, _, rfl⟩ | ⟨_, _, _, _, _, rfl⟩ | ⟨_, _, _, rfl⟩
  · simp [hr] at hr'
  · exact absurd hp hp'
  · exact acceptStep_keepsLines i (s.tick.presented rest)
  · exact ⟨rfl, rfl, rfl, rfl⟩
  · exact ⟨rfl, rfl, rfl, rfl⟩
  · exact ⟨rfl, rfl, rfl, rfl⟩

/-- Settles O24: with a Mode and a word in range both commands write all that the claim varies. -/
theorem synthAndXferUseNothingOld : Obligations.SynthAndXferUseNothingOld := by
  intro s d x y q a b j hb hm hd
  constructor
  · calc exec (.synth d) { s with tx := x, seq := q, seqvalid := a }
      _ = _ := exec_synth_ok hb hm hd
      _ = exec (.synth d) s := (exec_synth_ok hb hm hd).symm
  · calc exec (.xfer d) { s with tx := x, seq := q, seqvalid := a, rx := y, rxvalid := b, idx := j }
      _ = _ := exec_xfer_ok hb hm hd
      _ = exec (.xfer d) s := (exec_xfer_ok hb hm hd).symm

/-- Settles O56: the three assembled buses by their fields, every other output by its definition. -/
theorem busesShowTheRegisters : Obligations.BusesShowTheRegisters := by
  intro s
  obtain ⟨busy, mvalid, rxvalid, seqvalid, lasterr⟩ := statusBits_fields s
  obtain ⟨idx, ph⟩ := posBits_fields s
  refine ⟨⟨busy, mvalid, rxvalid, seqvalid, ?_⟩, ⟨idx, ?_⟩, modeBits_fields s.mode, ⟨rfl, rfl, rfl⟩,
    ⟨rfl, rfl, rfl, rfl, rfl⟩, ⟨rfl, rfl, rfl⟩, ⟨?_, ?_, rfl⟩, ?_, ?_⟩
  · exact lasterr.trans (by cases s.lasterr <;> rfl)
  · exact ph.trans (by cases s.ph <;> rfl)
  · simp [State.cmdReadyO]
  · simp [State.waitReqO]
  · simp [State.rspValidO]
  · intro r hr
    exact ⟨by simp [State.rspValidO, hr], State.rspWordO_of_some hr⟩

end

section
/-! PROOFS, family 20_memory. Apart from `rst`, a step looks at its input levels only in the micro-step that PH
enables (R64, R260). -/

namespace Sys2Proof.Machine

@[simp] theorem Env.now_cons {e : Env} {p : Pins} {ps : List Pins} (h : e.pins = p :: ps) : e.now = p := by
  simp [Env.now, Env.pinsAt, h]

theorem hardReset_eq_of_tick {s s' : State} (h : s'.tick = s.tick) : s'.hardReset = s.hardReset :=
  congrArg (fun t : State => { State.reset with env := t.env, events := t.events, responses := t.responses }) h

theorem idleStep_eq_of_tick {s s' : State} (h : s'.tick = s.tick) : idleStep s' = idleStep s := by
  have hb : s'.busy = s.busy := by simpa using congrArg State.busy h
  have hp : s'.env.pending = s.env.pending := by simpa using congrArg (fun t => t.env.pending) h
  simp only [idleStep, hb, hp, h]

/-- Two states that agree once the step has begun take the same step, when its reset and its micro-step agree. -/
theorem step_eq_of_tick {s s' : State} (hr : s'.env.rstAt 0 = s.env.rstAt 0) (h : s'.tick = s.tick)
    (hm : microStep s'.env.now s.tick = microStep s.env.now s.tick) : step s' = step s := by
  have hp : s'.ph = s.ph := by simpa using congrArg State.ph h
  cases hreset : s.env.rstAt 0 with
  | true => simp [step, cycle, hr, hreset, hardReset_eq_of_tick h]
  | false =>
    by_cases hidle : s.ph = .idle
    · simp [step, cycle, hr, hreset, hp, hidle, idleStep_eq_of_tick h]
    · rw [step_micro (hr.trans hreset) (hp ▸ hidle), step_micro hreset hidle, h, hm]

/-- Outside the four access micro-steps no micro-step looks at `io_fault_i` (R64). -/
theorem microStep_ioFault (p : Pins) (b : Bool) {s : State} (h : s.ph = .idle ∨ s.ph = .wait ∨ s.ph = .abort) :
    microStep { p with ioFault := b } s = microStep p s := by
  rcases h with h | h | h <;> simp only [microStep, h]
  rfl

end Sys2Proof.Machine
end

section
/-! PROOFS, family 20_memory. A micro-step updates at most one output register (R69, R72). -/

namespace Sys2Proof.Machine

@[simp] theorem State.record_out (s : State) (e : Event) (l : OutLine) : (s.record e).out l = s.out l := by
  cases l <;> rfl

@[simp] theorem State.takeLevel_out (s : State) (v : Level) (l : OutLine) : (s.takeLevel v).out l = s.out l := by
  rw [takeLevel_eq]; cases l <;> rfl

@[simp] theorem State.advance_out (s : State) (l : OutLine) : s.advance.out l = s.out l := by
  rcases s.advance_cases with ⟨_, h⟩ | ⟨_, h⟩ <;> rw [h] <;> cases l <;> rfl

@[simp] theorem State.waitOrAdvance_out (s : State) (l : OutLine) : s.waitOrAdvance.out l = s.out l := by
  rcases s.waitOrAdvance_cases with ⟨_, h⟩ | ⟨_, h⟩ <;> rw [h]
  · exact s.advance_out l
  · cases l <;> rfl

/-- From `s` to `t` no output register but that of `l` changes. -/
def ChangesOnly (l : OutLine) (s t : State) : Prop := ∀ l', l' ≠ l → t.out l' = s.out l'

theorem writeStep_changesOnly (s : State) (p : Pins) (l : OutLine) (v : Level) (ph : Phase) :
    ChangesOnly l s (s.writeStep p l v ph) := by
  intro l' hl
  rcases s.writeStep_cases p l v ph with ⟨_, h⟩ | ⟨_, h⟩ <;> rw [h]
  · calc State.out { (s.setOut l v).record (.write l v true) with ph := ph } l'
      _ = (s.setOut l v).out l' := by cases l' <;> rfl
      _ = s.out l' := s.out_setOut_other l l' v hl
  · cases l' <;> rfl

theorem microStep_changesOnly (p : Pins) (s : State) : ∃ l, ChangesOnly l s (microStep p s) := by
  cases hph : s.ph with simp only [microStep, hph]
  | idle => exact ⟨.mosi, fun _ _ => rfl⟩
  | wrD => exact ⟨.mosi, writeStep_changesOnly s p _ _ _⟩
  | wrK => exact ⟨.sclk, writeStep_changesOnly s p _ _ _⟩
  | wrS => exact ⟨.csn, writeStep_changesOnly s p _ _ _⟩
  | rd =>
    refine ⟨.mosi, fun l' _ => ?_⟩
    rcases microRd_cases p s with ⟨e, v, h⟩ | ⟨e, h⟩ <;> rw [h]
    · simp
    · cases l' <;> rfl
  | wait =>
    refine ⟨.mosi, fun l' _ => ?_⟩
    rcases microWait_cases p s with h | ⟨e, h⟩ <;> rw [h]
    simp
  | abort =>
    refine ⟨.csn, fun l' hl => ?_⟩
    calc (microAbort s).out l'
      _ = (s.setOut .csn true).out l' := by cases l' <;> rfl
      _ = s.out l' := s.out_setOut_other .csn l' true hl

end Sys2Proof.Machine
end

section
/-! PROOFS, family 20_memory. The event history of a transfer, index by index (R75, R172). -/

namespace Sys2Proof.Machine

/-- What a transfer is about, fixed from its accepting step to its end (R41): the word, the Mode, the delay and what
drives `miso_i`. -/
structure Job where
  data : DataWord
  mode : Mode
  delayMs : BitVec 16
  wiring : Wiring

/-- The transfer that `s` is in. -/
def State.job (s : State) : Job := ⟨s.tx, s.mode, s.delayMs, s.env.wiring⟩

@[simp] theorem State.job_data (s : State) : s.job.data = s.tx := rfl
@[simp] theorem State.job_mode (s : State) : s.job.mode = s.mode := rfl
@[simp] theorem State.job_delayMs (s : State) : s.job.delayMs = s.delayMs := rfl
@[simp] theorem State.job_wiring (s : State) : s.job.wiring = s.env.wiring := rfl
@[simp] theorem State.job_record (s : State) (e : Event) : (s.record e).job = s.job := rfl
@[simp] theorem State.job_takeLevel (s : State) (v : Level) : (s.takeLevel v).job = s.job := by simp [State.job]

theorem microStep_job (p : Pins) (s : State) : (microStep p s).job = s.job := by
  have h := microStep_keepsSettings p s
  simp only [State.job, h.tx, h.mode, h.delayMs, h.env]

namespace Job

/-- The events of index i when its read returns `v`. -/
def eventsAt (j : Job) (i : Nat) (v : Level) : List Event := indexEvents j.data j.mode j.delayMs i v

/-- Index i may read `v`: in loopback only DataOut's own element (R76). -/
def MayRead (j : Job) (i : Nat) (v : Level) : Prop :=
  j.wiring = .loopback → v = doutSeq j.data j.mode.cpha j.mode.w.toNat i

/-- `es` is `base`, then all events of the indices below i, then the first k events of index i, for some levels read. -/
def Recorded (j : Job) (base : List Event) (i k : Nat) (es : List Event) : Prop :=
  ∃ m : Nat → Level, (∀ i', j.MayRead i' (m i')) ∧
    es = base ++ (List.range i).flatMap (fun i' => j.eventsAt i' (m i')) ++ (j.eventsAt i (m i)).take k

variable {j : Job} {base es : List Event} {i k : Nat}

theorem recorded_zero (j : Job) (base : List Event) : j.Recorded base 0 0 base :=
  ⟨doutSeq j.data j.mode.cpha j.mode.w.toNat, fun _ _ => rfl, by simp⟩

/-- The next event of the index, where it does not depend on the level read. -/
theorem Recorded.event (h : j.Recorded base i k es) {e : Event} (he : ∀ v, (j.eventsAt i v)[k]? = some e) :
    j.Recorded base i (k + 1) (es ++ [e]) := by
  obtain ⟨m, hm, rfl⟩ := h
  exact ⟨m, hm, by simp [List.take_add_one, he]⟩

/-- The read is the fourth event of the index; until it the history does not depend on its level. -/
theorem Recorded.read (h : j.Recorded base i 3 es) {v : Level} (hv : j.MayRead i v) :
    j.Recorded base i 4 (es ++ [.read (some v)]) := by
  obtain ⟨m, hm, rfl⟩ := h
  refine ⟨Function.update m i v, fun i' => ?_, ?_⟩
  · by_cases hi : i' = i
    · subst hi; simpa using hv
    · simpa [hi] using hm i'
  · have hbelow : (List.range i).flatMap (fun i' => j.eventsAt i' (Function.update m i v i')) =
        (List.range i).flatMap (fun i' => j.eventsAt i' (m i')) := by
      refine List.flatMap_congr fun i' hi' => ?_
      rw [Function.update_of_ne (List.mem_range.mp hi').ne]
    rw [hbelow, Function.update_self, List.append_assoc]
    rfl

/-- When all its events are recorded the index is complete. -/
theorem Recorded.next (h : j.Recorded base i k es) (hk : ∀ v, (j.eventsAt i v).length = k) :
    j.Recorded base (i + 1) 0 es := by
  obtain ⟨m, hm, rfl⟩ := h
  exact ⟨m, hm, by simp [List.range_succ, List.take_of_length_le (hk (m i)).le]⟩

end Job

/-- The number of events of the current index that are behind the engine in each phase (R172). -/
@[simp] def Phase.eventsDone : Phase → Nat
  | .wrK => 1
  | .wrS => 2
  | .rd => 3
  | .wait => 4
  | .idle | .wrD | .abort => 0

/-- The history of `s` follows the transfer `j`, unless an access has failed: up to IDX and PH while BUSY = 1, and over
all indices once the transfer has completed. -/
structure Tracks (j : Job) (base : List Event) (s : State) : Prop where
  going : s.busy = true → s.ph ≠ .abort → j.Recorded base s.idx.toNat s.ph.eventsDone s.events
  completed : s.busy = false → s.rxvalid = true → j.Recorded base (seqLength j.mode.w.toNat) 0 s.events

theorem Tracks.of_going {j : Job} {base : List Event} {s : State} (hb : s.busy = true)
    (h : j.Recorded base s.idx.toNat s.ph.eventsDone s.events) : Tracks j base s :=
  ⟨fun _ _ => h, fun hn => absurd (hb.symm.trans hn) (by decide)⟩

theorem Tracks.of_abort {j : Job} {base : List Event} {s : State} (hb : s.busy = true) (hp : s.ph = .abort) :
    Tracks j base s :=
  ⟨fun _ hn => absurd hp hn, fun hn => absurd (hb.symm.trans hn) (by decide)⟩

theorem Tracks.of_noResult {j : Job} {base : List Event} {s : State} (hb : s.busy = false) (hx : s.rxvalid = false) :
    Tracks j base s :=
  ⟨fun h => absurd (hb.symm.trans h) (by decide), fun _ h => absurd (hx.symm.trans h) (by decide)⟩

/-- A write micro-step adds its event, which is the next one of the index, or fails. -/
theorem writeStep_tracks {base : List Event} {s : State} (hb : s.busy = true) (p : Pins) {l : OutLine} {v : Level}
    {ph : Phase} (h : s.job.Recorded base s.idx.toNat s.ph.eventsDone s.events)
    (hph : ph.eventsDone = s.ph.eventsDone + 1)
    (he : ∀ m, (s.job.eventsAt s.idx.toNat m)[s.ph.eventsDone]? = some (.write l v true)) :
    Tracks s.job base (s.writeStep p l v ph) := by
  rcases s.writeStep_cases p l v ph with ⟨_, hc⟩ | ⟨_, hc⟩ <;> rw [hc]
  · refine .of_going ((State.setOut_busy s l v).trans hb) ?_
    simpa [State.record, hph, -Phase.eventsDone] using h.event he
  · exact .of_abort hb rfl

/-- `advance()` adds no event: the complete index is followed by the next one, or was the last (R179, R180). -/
theorem advance_tracks {base : List Event} {s : State} (hb : s.busy = true) (hw : s.mode.w.toNat ≤ 32)
    (hs : s.seq = synthesize s.tx s.mode) (hi : s.idx.toNat < seqLength s.mode.w.toNat)
    (h : s.job.Recorded base (s.idx.toNat + 1) 0 s.events) : Tracks s.job base s.advance := by
  rcases s.advance_cases with ⟨hlast, hc⟩ | ⟨hn, hc⟩ <;> rw [hc]
  · have hidx : s.idx.toNat + 1 = seqLength s.job.mode.w.toNat := by
      rw [hlast, len_sub_one hw hs]; rfl
    exact ⟨nofun, fun _ _ => hidx ▸ h⟩
  · refine .of_going hb ?_
    simpa [(idx_succ hw hs hi hn).1] using h

/-- After the read the engine waits, with four of five events recorded, or the index is complete (R176). -/
theorem waitOrAdvance_tracks {base : List Event} {s : State} (hb : s.busy = true) (hw : s.mode.w.toNat ≤ 32)
    (hs : s.seq = synthesize s.tx s.mode) (hi : s.idx.toNat < seqLength s.mode.w.toNat)
    (h : s.job.Recorded base s.idx.toNat 4 s.events) : Tracks s.job base s.waitOrAdvance := by
  rcases s.waitOrAdvance_cases with ⟨hd, hc⟩ | ⟨_, hc⟩ <;> rw [hc]
  · exact advance_tracks hb hw hs hi (h.next fun v => by simp [Job.eventsAt, indexEvents, hd])
  · exact .of_going hb h

section
variable {base : List Event} {s : State} (r : s.Running) (hb : s.busy = true) (hw : s.mode.w.toNat ≤ 32)
include r hb hw

/-- In loopback the level on `miso_i` at the read is the element DataOut holds (R66, R76). -/
theorem State.Running.microRd_tracks (hp : s.ph = .rd) (p : Pins)
    (h : s.job.Recorded base s.idx.toNat 3 s.events) : Tracks s.job base (microRd p s) := by
  unfold microRd
  rcases s.pinRead_cases p with ⟨_, hc⟩ | ⟨_, hc⟩ <;> rw [hc]
  · have hv : s.job.MayRead s.idx.toNat (s.misoLevel p) := by
      intro hwi
      rw [State.job_wiring] at hwi
      simpa [State.misoLevel, hwi] using r.mosi (by simp [hp])
    generalize s.misoLevel p = v at hv
    have ht : Tracks ((s.record (.read (some v))).takeLevel v).job base
        ((s.record (.read (some v))).takeLevel v).waitOrAdvance := by
      refine waitOrAdvance_tracks ?_ ?_ ?_ ?_ ?_
      · simpa using hb
      · simpa using hw
      · simpa using r.seq
      · simpa using r.idx
      · simpa using h.read hv
    simpa using ht
  · exact .of_abort hb rfl

/-- WAIT adds its event when it ends, and it is entered with a delay only (R178). -/
theorem State.Running.microWait_tracks (hp : s.ph = .wait) (p : Pins)
    (h : s.job.Recorded base s.idx.toNat 4 s.events) : Tracks s.job base (microWait p s) := by
  have hd : s.delayMs ≠ 0#16 := r.delay hp
  unfold microWait
  split
  · refine advance_tracks (s := s.record (.wait s.delayMs)) hb hw r.seq r.idx ?_
    refine Job.Recorded.next (k := 5) (h.event fun v => ?_) fun v => ?_
    · simp [Job.eventsAt, indexEvents, hd]
    · simp [Job.eventsAt, indexEvents, hd]
  · exact .of_going hb (by simpa [hp] using h)

/-- Every micro-step records the event of its place in the index, or none once an access has failed (R172 to R182). -/
theorem State.Running.microStep_tracks (hp : s.ph ≠ .idle) (p : Pins) (h : Tracks s.job base s) :
    Tracks s.job base (microStep p s) := by
  obtain ⟨hdo, hck, hcs, _⟩ := r.elem_eq hw
  have going := h.going hb
  cases hph : s.ph with simp only [microStep, hph]
  | idle => exact absurd hph hp
  | wrD =>
    refine writeStep_tracks hb p (going (by simp [hph])) (by simp [hph]) fun _ => ?_
    simp [Job.eventsAt, indexEvents, hph, hdo]
  | wrK =>
    refine writeStep_tracks hb p (going (by simp [hph])) (by simp [hph]) fun _ => ?_
    simp [Job.eventsAt, indexEvents, hph, hck]
  | wrS =>
    refine writeStep_tracks hb p (going (by simp [hph])) (by simp [hph]) fun _ => ?_
    simp [Job.eventsAt, indexEvents, hph, hcs]
  | rd => exact r.microRd_tracks hb hw hph p (by simpa [hph] using going (by simp [hph]))
  | wait => exact r.microWait_tracks hb hw hph p (by simpa [hph] using going (by simp [hph]))
  | abort => exact .of_noResult rfl r.rxvalid

end

/-- A consistent state whose history follows the transfer `j`, which it is in while BUSY = 1. -/
structure Follows (j : Job) (base : List Event) (s : State) : Prop where
  inv : s.Inv
  job : s.busy = true → s.job = j
  tracks : Tracks j base s

/-- In a transfer a step is a micro-step, or a reset, which leaves no result. -/
theorem Follows.of_step {j : Job} {base : List Event} {s t : State} (hb : s.busy = true) (h : Follows j base s)
    (hst : step s = .next t) : Follows j base t := by
  obtain ⟨hinv, hjob, htr⟩ := h
  obtain rfl : s.job = j := hjob hb
  have r : s.Running := hinv.running hb
  have hp : s.ph ≠ .idle := hinv.busy.mp hb
  have tinv : t.Inv := hinv.step_inv hst
  cases hr : s.env.rstAt 0 with
  | true =>
    obtain rfl : s.hardReset = t := by simpa [step, cycle, hr] using hst
    exact ⟨tinv, nofun, .of_noResult rfl rfl⟩
  | false =>
    obtain rfl : microStep s.env.now s.tick = t := by simpa [step_micro hr hp] using hst
    have htick : Tracks s.tick.job base s.tick := ⟨htr.going, htr.completed⟩
    exact ⟨tinv, fun _ => microStep_job _ _, r.tick.microStep_tracks hb (hinv.width r.mvalid).2 hp _ htick⟩

/-- What every step of a busy block keeps, a run keeps whose states before the last are busy. -/
theorem Runs.keeps_whileBusy {P : State → Prop} (hstep : ∀ s t, s.busy = true → P s → step s = .next t → P t)
    {n : Nat} {s t : State} (h : Runs n s t) (hb : ∀ k v, k < n → Runs k s v → v.busy = true) (hs : P s) : P t := by
  induction n generalizing s with
  | zero => exact runs_zero_iff.mp h ▸ hs
  | succ n ih =>
    obtain ⟨u, hu, hr⟩ := runs_succ_iff.mp h
    have hsb : s.busy = true := hb 0 s n.succ_pos (runs_zero_iff.mpr rfl)
    refine ih hr (fun k v hk hv => ?_) (hstep s u hsb hs hu)
    exact hb (k + 1) v (Nat.succ_lt_succ hk) (runs_succ_iff.mpr ⟨u, hu, hv⟩)

/-- The transfer that `XFER d` starts in `s` (R171). -/
theorem EndsIn.start_eq {d : DataWord} {s t u : State} {n : Nat} (h : EndsIn d s t n u) :
    t = { s.loadWord d with rx := 0#32, rxvalid := false, busy := true, idx := 0#7, ph := .wrD } := by
  obtain rfl : acceptStep (.xfer d) s = t := by simpa [exec_ready _ h.ready] using h.accepted
  rcases xferStep_cases s d with ⟨e, hc⟩ | ⟨_, _, hc⟩
  · have hb := h.started
    rw [acceptStep, hc, State.raise_busy, h.ready] at hb
    exact absurd hb (by decide)
  · exact hc

theorem EndsIn.start_inv {d : DataWord} {s t u : State} {n : Nat} (h : EndsIn d s t n u) (hs : s.Inv) : t.Inv := by
  obtain rfl : acceptStep (.xfer d) s = t := by simpa [exec_ready _ h.ready] using h.accepted
  exact (hs.resting h.ready).acceptStep_inv (.xfer d)

/-- From the accepting step to the end the history follows the transfer. -/
theorem EndsIn.follows {d : DataWord} {s t u : State} {n : Nat} (h : EndsIn d s t n u) (hs : s.Inv) :
    Follows ⟨d, s.mode, s.delayMs, s.env.wiring⟩ s.events u := by
  refine h.run.keeps_whileBusy (fun _ _ hb hv hst => hv.of_step hb hst) h.before ?_
  have hinv : t.Inv := h.start_inv hs
  obtain rfl := h.start_eq
  exact ⟨hinv, fun _ => rfl, .of_going rfl (Job.recorded_zero _ _)⟩

end Sys2Proof.Machine
end

section
/-! PROOFS, family 20_memory. The obligations. -/

open Sys2Proof Sys2Proof.Machine

/-- Settles O46: with PH = IDLE no line is touched, and a micro-step touches one. -/
theorem noTwoLinesChangeAtOnce : Obligations.NoTwoLinesChangeAtOnce := by
  intro s t hr hst
  by_cases hp : s.ph = .idle
  · obtain ⟨hmosi, hsclk, hcsn, _⟩ := onlyMicroStepsTouchTheLines s t hr hp hst
    refine ⟨.mosi, fun l' _ => ?_⟩
    cases l' with
    | mosi => exact hmosi
    | sclk => exact hsclk
    | csn => exact hcsn
  · obtain rfl : microStep s.env.now s.tick = t := by simpa [step_micro hr hp] using hst
    obtain ⟨l, hl⟩ := microStep_changesOnly s.env.now s.tick
    exact ⟨l, fun l' hne => (hl l' hne).trans (by cases l' <;> rfl)⟩

/-- Settles O52, by the run of the transfer: after every micro-step the history holds the events up to IDX and PH. -/
theorem completedTransferHistory : Obligations.CompletedTransferHistory := by
  intro d s t u n hs h hx
  obtain ⟨m, hm, hev⟩ := (h.follows hs).tracks.completed h.ended hx
  refine ⟨m, ?_, fun hwi i _ => hm i hwi⟩
  simpa [seqLength, Job.eventsAt] using hev

/-- Settles O29: the two states agree once the step has begun, and no micro-step there looks at `io_fault_i`. -/
theorem ioFaultIgnoredOutsideAccesses : Obligations.IoFaultIgnoredOutsideAccesses := by
  intro s p ps b hph hps
  refine step_eq_of_tick rfl ?_ ?_
  · simp [State.tick, Env.tick, hps]
  · rw [Env.now_cons hps, Env.now_cons rfl]
    exact microStep_ioFault p b hph

end

section
/-! PROOFS, family 30_encoding. The decoder row by row: what decides a word's row, and what the row gives. -/

namespace Sys2Proof.Machine

/-- Masking out the lowest `k` bits leaves the weight of the others. -/
theorem and_highMask_toNat (w : CmdWord) (k : Nat) :
    (w &&& BitVec.allOnes 40 <<< k).toNat = w.toNat / 2 ^ k * 2 ^ k := by
  have hle : w.toNat / 2 ^ k * 2 ^ k ≤ w.toNat := Nat.div_mul_le_self ..
  rw [← BitVec.shiftLeft_ushiftRight, BitVec.toNat_shiftLeft, BitVec.toNat_ushiftRight, Nat.shiftRight_eq_div_pow,
    Nat.shiftLeft_eq, Nat.mod_eq_of_lt (hle.trans_lt w.isLt)]

/-- `w` has the opcode `op`, and its reserved bits are 0 when the lowest `k` bits are the operands (R93 to R95). -/
def InRow (w : CmdWord) (op : BitVec 4) (k : Nat) : Prop :=
  opField w = op ∧ w.extractLsb' k (36 - k) = 0#(36 - k)

/-- A row of the opcode table by its match and mask. -/
theorem inRow_iff_mask (w : CmdWord) (op : BitVec 4) {k : Nat} (hk : k ≤ 36) :
    InRow w op k ↔ w &&& BitVec.allOnes 40 <<< k = fieldAt op 36 := by
  have hpow : 2 ^ 36 = 2 ^ (36 - k) * 2 ^ k := by rw [← pow_add, Nat.sub_add_cancel hk]
  have hop : opField w = op ↔ w.toNat / 2 ^ k / 2 ^ (36 - k) = op.toNat := by
    rw [Nat.div_div_eq_div_mul, mul_comm (2 ^ k), ← hpow, ← BitVec.toNat_inj, opField, BitVec.extractLsb'_toNat,
      Nat.shiftRight_eq_div_pow]
    have := w.isLt
    omega
  have hmask : w &&& BitVec.allOnes 40 <<< k = fieldAt op 36 ↔ w.toNat / 2 ^ k = op.toNat * 2 ^ (36 - k) := by
    rw [← BitVec.toNat_inj, and_highMask_toNat, fieldAt_toNat op 36 (by omega), hpow, ← mul_assoc]
    exact Nat.mul_left_inj (by positivity)
  rw [InRow, hop, extractLsb'_eq_iff, hmask, Nat.zero_mod]
  generalize w.toNat / 2 ^ k = q
  constructor
  · rintro ⟨hq, hr⟩
    rw [← hq, Nat.div_mul_cancel (Nat.dvd_of_mod_eq_zero hr)]
  · rintro rfl
    exact ⟨Nat.mul_div_cancel _ (by positivity), Nat.mul_mod_left ..⟩

/-- A set bit among the reserved ones. -/
theorem reserved_ne_zero_iff (w : CmdWord) {k : Nat} :
    w.extractLsb' k (36 - k) ≠ 0#(36 - k) ↔ ∃ i, k ≤ i ∧ i ≤ 35 ∧ w.getLsbD i = true := by
  constructor
  · intro h
    obtain ⟨j, hj⟩ : ∃ j, (w.extractLsb' k (36 - k)).getLsbD j = true := by
      by_contra hn
      exact h (BitVec.eq_of_getLsbD_eq fun j _ => by simpa using not_exists.mp hn j)
    rw [BitVec.getLsbD_extractLsb', Bool.and_eq_true, decide_eq_true_eq] at hj
    exact ⟨k + j, by omega, by omega, hj.2⟩
  · rintro ⟨i, hki, hi, hw⟩ h
    have hbit := congrArg (·.getLsbD (i - k)) h
    simp [BitVec.getLsbD_extractLsb', Nat.add_sub_cancel' hki, hw] at hbit
    omega

theorem InRow.decode_mode {w : CmdWord} (h : InRow w 1#4 10) :
    decode w = .ok (.mode (w.getLsbD 9) (w.getLsbD 8) (w.extractLsb' 0 8)) := by
  obtain ⟨hop, hres⟩ := h
  simp [decode, hop, hres]

theorem InRow.decode_delay {w : CmdWord} (h : InRow w 2#4 16) : decode w = .ok (.delay (w.extractLsb' 0 16)) := by
  obtain ⟨hop, hres⟩ := h
  simp [decode, hop, hres]

theorem InRow.decode_synth {w : CmdWord} (h : InRow w 3#4 32) : decode w = .ok (.synth (w.extractLsb' 0 32)) := by
  obtain ⟨hop, hres⟩ := h
  simp [decode, hop, hres]

theorem InRow.decode_xfer {w : CmdWord} (h : InRow w 4#4 32) : decode w = .ok (.xfer (w.extractLsb' 0 32)) := by
  obtain ⟨hop, hres⟩ := h
  simp [decode, hop, hres]

/-- An illegal word decodes to no command (R97, R98). -/
theorem decode_illegal {w : CmdWord} (h : IllegalWord w) : ∃ e, decode w = .error e := by
  rcases h with hop | hop | ⟨hop, hres⟩ | ⟨hop, hres⟩ | ⟨hop | hop, hres⟩
  · exact ⟨.reservedOpcode, by simp [decode, hop]⟩
  · have hne : ∀ op : BitVec 4, op.toNat < 5 → opField w ≠ op := fun op hlt h => by rw [h] at hop; omega
    exact ⟨.reservedOpcode, by simp [decode, hne]⟩
  all_goals
    have := (reserved_ne_zero_iff w).mpr hres
    exact ⟨.reservedBits, by simpa [decode, hop] using this⟩

/-- Every word lies in a row of the table or is illegal. -/
theorem inRow_or_illegal (w : CmdWord) :
    InRow w 1#4 10 ∨ InRow w 2#4 16 ∨ InRow w 3#4 32 ∨ InRow w 4#4 32 ∨ IllegalWord w := by
  have hop : ∀ o : BitVec 4, o = 0#4 ∨ 5 ≤ o.toNat ∨ o = 1#4 ∨ o = 2#4 ∨ o = 3#4 ∨ o = 4#4 := by decide
  have hword := hop (opField w)
  rw [IllegalWord, ← reserved_ne_zero_iff w, ← reserved_ne_zero_iff w, ← reserved_ne_zero_iff w]
  unfold InRow
  tauto

end Sys2Proof.Machine
end

section
/-! PROOFS, family 30_encoding. The words of commands and assembler lines. -/

namespace Sys2Proof.Machine

/-- The word of a command lies in the command's row (R93 to R95). -/
theorem inRow_encode_mode (cpol cpha : Level) (w : BitVec 8) : InRow (encode (.mode cpol cpha w)) 1#4 10 :=
  (inRow_iff_mask _ _ (by decide)).mpr (Laws.mode_fixed cpol cpha w)

theorem inRow_encode_delay (ms : BitVec 16) : InRow (encode (.delay ms)) 2#4 16 :=
  (inRow_iff_mask _ _ (by decide)).mpr (Laws.delay_fixed ms)

theorem inRow_encode_synth (d : DataWord) : InRow (encode (.synth d)) 3#4 32 :=
  (inRow_iff_mask _ _ (by decide)).mpr (Laws.synth_fixed d)

theorem inRow_encode_xfer (d : DataWord) : InRow (encode (.xfer d)) 4#4 32 :=
  (inRow_iff_mask _ _ (by decide)).mpr (Laws.xfer_fixed d)

/-- A bit of a word is the level that is there as a number. -/
theorem getLsbD_eq_iff {w : CmdWord} {i : Nat} {b : Level} : w.getLsbD i = b ↔ w.toNat / 2 ^ i % 2 = b.toNat := by
  rw [← getLsbD_toNat]
  cases w.getLsbD i <;> cases b <;> decide

/-- The operand in the lowest bits, as a number. -/
theorem lowField_toNat (w : CmdWord) (n : Nat) : (w.extractLsb' 0 n).toNat = w.toNat % 2 ^ n := by
  rw [BitVec.extractLsb'_toNat, Nat.shiftRight_zero]

/-- Decoding the word of a command gives back every operand (R93 to R95, R98). -/
theorem decode_encode (i : Instr) : decode (encode i) = .ok i := by
  cases i with
  | mode cpol cpha w =>
    have h := encode_mode_toNat cpol cpha w
    have hcpha := cpha.toNat_le
    have hcpol := cpol.toNat_le
    have hw := w.isLt
    have e9 : (encode (.mode cpol cpha w)).getLsbD 9 = cpol := getLsbD_eq_iff.mpr (by omega)
    have e8 : (encode (.mode cpol cpha w)).getLsbD 8 = cpha := getLsbD_eq_iff.mpr (by omega)
    have e0 : (encode (.mode cpol cpha w)).extractLsb' 0 8 = w :=
      BitVec.eq_of_toNat_eq (by rw [lowField_toNat]; omega)
    rw [(inRow_encode_mode cpol cpha w).decode_mode, e9, e8, e0]
  | delay ms =>
    have h := encode_delay_toNat ms
    have e0 : (encode (.delay ms)).extractLsb' 0 16 = ms := BitVec.eq_of_toNat_eq (by rw [lowField_toNat]; omega)
    rw [(inRow_encode_delay ms).decode_delay, e0]
  | synth d =>
    have h := encode_synth_toNat d
    have e0 : (encode (.synth d)).extractLsb' 0 32 = d := BitVec.eq_of_toNat_eq (by rw [lowField_toNat]; omega)
    rw [(inRow_encode_synth d).decode_synth, e0]
  | xfer d =>
    have h := encode_xfer_toNat d
    have e0 : (encode (.xfer d)).extractLsb' 0 32 = d := BitVec.eq_of_toNat_eq (by rw [lowField_toNat]; omega)
    rw [(inRow_encode_xfer d).decode_xfer, e0]

/-- A word of a row is its opcode and its operand bits. -/
theorem InRow.toNat_eq {w : CmdWord} {op : BitVec 4} {k : Nat} (h : InRow w op k) (hk : k ≤ 36) :
    w.toNat = op.toNat * 2 ^ 36 + w.toNat % 2 ^ k := by
  have hmask := and_highMask_toNat w k
  rw [(inRow_iff_mask w op hk).mp h, fieldAt_toNat op 36 (by omega)] at hmask
  rw [hmask, Nat.div_add_mod']

/-- A word that decodes to a command is the command's word (R97, R98). -/
theorem encode_of_decode {w : CmdWord} {i : Instr} (h : decode w = .ok i) : encode i = w := by
  apply BitVec.eq_of_toNat_eq
  rcases inRow_or_illegal w with hr | hr | hr | hr | hill
  · obtain rfl : Instr.mode (w.getLsbD 9) (w.getLsbD 8) (w.extractLsb' 0 8) = i := by simpa [hr.decode_mode] using h
    have hw : w.toNat = 0x1000000000 + w.toNat % 2 ^ 10 := hr.toNat_eq (by decide)
    rw [encode_mode_toNat, getLsbD_toNat, getLsbD_toNat, lowField_toNat]
    omega
  · obtain rfl : Instr.delay (w.extractLsb' 0 16) = i := by simpa [hr.decode_delay] using h
    rw [encode_delay_toNat, lowField_toNat]
    exact (hr.toNat_eq (by decide)).symm
  · obtain rfl : Instr.synth (w.extractLsb' 0 32) = i := by simpa [hr.decode_synth] using h
    rw [encode_synth_toNat, lowField_toNat]
    exact (hr.toNat_eq (by decide)).symm
  · obtain rfl : Instr.xfer (w.extractLsb' 0 32) = i := by simpa [hr.decode_xfer] using h
    rw [encode_xfer_toNat, lowField_toNat]
    exact (hr.toNat_eq (by decide)).symm
  · obtain ⟨e, he⟩ := decode_illegal hill
    simp [he] at h

/-! The words of lines whose numbers are in range (R104). -/

theorem modeWord_toNat {c p w : Nat} (hc : c ≤ 1) (hp : p ≤ 1) (hw : w ≤ 255) :
    (encode (.mode (bitOf c) (bitOf p) (BitVec.ofNat 8 w))).toNat = 0x1000000000 + 512 * c + 256 * p + w := by
  rw [encode_mode_toNat, bitOf_toNat hc, bitOf_toNat hp, BitVec.toNat_ofNat, Nat.mod_eq_of_lt (by omega)]

theorem delayWord_toNat {ms : Nat} (h : ms ≤ 65535) :
    (encode (.delay (BitVec.ofNat 16 ms))).toNat = 0x2000000000 + ms := by
  rw [encode_delay_toNat, BitVec.toNat_ofNat, Nat.mod_eq_of_lt (by omega)]

theorem synthWord_toNat {d : Nat} (h : d ≤ 0xFFFFFFFF) :
    (encode (.synth (BitVec.ofNat 32 d))).toNat = 0x3000000000 + d := by
  rw [encode_synth_toNat, BitVec.toNat_ofNat, Nat.mod_eq_of_lt (by omega)]

theorem xferWord_toNat {d : Nat} (h : d ≤ 0xFFFFFFFF) :
    (encode (.xfer (BitVec.ofNat 32 d))).toNat = 0x4000000000 + d := by
  rw [encode_xfer_toNat, BitVec.toNat_ofNat, Nat.mod_eq_of_lt (by omega)]

end Sys2Proof.Machine
end

section
/-! PROOFS, family 30_encoding. A step by what it finds: a busy block, or in an idle one a word, a pause or nothing. -/

namespace Sys2Proof.Machine

/-- Without reset a step with PH = IDLE is the idle step. -/
theorem step_idle {s : State} (hr : s.env.rstAt 0 = false) (hp : s.ph = .idle) : step s = idleStep s := by
  simp [step, cycle, hr, hp]

theorem idleStep_word {s : State} {w : CmdWord} {rest : List (Option CmdWord)} (hb : s.busy = false)
    (hw : s.env.pending = some w :: rest) : idleStep s = acceptWord w (s.tick.presented rest) := by
  simp [idleStep, hb, hw]

theorem idleStep_pause {s : State} {rest : List (Option CmdWord)} (hb : s.busy = false)
    (hw : s.env.pending = none :: rest) : idleStep s = .next (s.tick.presented rest) := by
  simp [idleStep, hb, hw]

theorem idleStep_nothing {s : State} (hb : s.busy = false) (hw : s.env.pending = []) : idleStep s = .next s.tick := by
  simp [idleStep, hb, hw]

theorem idleStep_busy {s : State} (hb : s.busy = true) : idleStep s = .next s.tick := by
  simp [idleStep, hb]

theorem acceptWord_ok {w : CmdWord} {i : Instr} (h : decode w = .ok i) (s : State) : acceptWord w s = exec i s := by
  simp [acceptWord, h]

theorem acceptWord_illegal {w : CmdWord} (h : IllegalWord w) {s : State} (hb : s.busy = false) :
    acceptWord w s = .next (s.raise .illegalCommand) := by
  obtain ⟨e, he⟩ := decode_illegal h
  simp [acceptWord, he, State.whenReady_ready _ hb]

/-- The next state of a busy block: a reset, or the micro-step that PH enables (none with PH = IDLE). -/
def busyNext (s : State) : State := if s.env.rstAt 0 then s.hardReset else microStep s.env.now s.tick

theorem step_busy {s : State} (hb : s.busy = true) : step s = .next (busyNext s) := by
  cases hr : s.env.rstAt 0 with
  | true => simp [step, cycle, busyNext, hr]
  | false =>
    by_cases hp : s.ph = .idle
    · rw [step_idle hr hp, idleStep_busy hb]
      simp [busyNext, hr, microStep, hp]
    · rw [step_micro hr hp]
      simp [busyNext, hr]

/-- A busy block does not look at the words the host presents, and keeps them (R33, R91). -/
theorem busyNext_presented (s : State) (ws : List (Option CmdWord)) :
    busyNext (s.presented ws) = (busyNext s).presented ws := by
  unfold busyNext
  rw [show (s.presented ws).env.rstAt 0 = s.env.rstAt 0 from rfl]
  split
  · rfl
  · exact microStep_presented s.env.now s.tick ws

theorem busyNext_pending (s : State) : (busyNext s).env.pending = s.env.pending := by
  have h : busyNext s = (busyNext s).presented s.env.pending := busyNext_presented s s.env.pending
  rw [h]
  rfl

end Sys2Proof.Machine
end

section
/-! PROOFS, family 30_encoding. Responses: a command is answered in the step that ends it (R100). -/

namespace Sys2Proof.Machine

/-- `t` follows `s` in a command: it is not answered yet and the block is busy, or it is answered once and the block is
ready. -/
def GoesOnOrAnswers (s t : State) : Prop :=
  (t.rsp = none ∧ t.responses = s.responses ∧ t.busy = true) ∨
    ∃ r, t.rsp = some r ∧ t.responses = s.responses ++ [r] ∧ t.busy = false

theorem raise_answers {s : State} (hb : s.busy = false) (e : Status) : GoesOnOrAnswers s (s.raise e) :=
  .inr ⟨_, rfl, rfl, hb⟩

/-- MODE, DELAY, SYNTH and every error are answered at once; a transfer that starts is not (R91). -/
theorem acceptStep_goesOnOrAnswers (i : Instr) {s : State} (hn : s.rsp = none) (hb : s.busy = false) :
    GoesOnOrAnswers s (acceptStep i s) := by
  cases i with
  | mode cpol cpha w =>
    rcases modeStep_cases s cpol cpha w with ⟨_, h⟩ | h <;> rw [acceptStep, h]
    · exact .inr ⟨_, rfl, rfl, hb⟩
    · exact raise_answers hb _
  | delay ms => exact .inr ⟨_, rfl, rfl, hb⟩
  | synth d =>
    rcases synthStep_cases s d with ⟨e, h⟩ | ⟨_, _, h⟩ <;> rw [acceptStep, h]
    · exact raise_answers hb e
    · exact .inr ⟨_, rfl, rfl, hb⟩
  | xfer d =>
    rcases xferStep_cases s d with ⟨e, h⟩ | ⟨_, _, h⟩ <;> rw [acceptStep, h]
    · exact raise_answers hb e
    · exact .inl ⟨hn, rfl, rfl⟩

section
variable {s : State} (hn : s.rsp = none) (hb : s.busy = true)
include hn hb

theorem advance_goesOnOrAnswers : GoesOnOrAnswers s s.advance := by
  rcases s.advance_cases with ⟨_, h⟩ | ⟨_, h⟩ <;> rw [h]
  · exact .inr ⟨_, rfl, rfl, rfl⟩
  · exact .inl ⟨hn, rfl, hb⟩

theorem waitOrAdvance_goesOnOrAnswers : GoesOnOrAnswers s s.waitOrAdvance := by
  rcases s.waitOrAdvance_cases with ⟨_, h⟩ | ⟨_, h⟩ <;> rw [h]
  · exact advance_goesOnOrAnswers hn hb
  · exact .inl ⟨hn, rfl, hb⟩

theorem writeStep_goesOn (p : Pins) (l : OutLine) (v : Level) (ph : Phase) :
    GoesOnOrAnswers s (s.writeStep p l v ph) := by
  rcases s.writeStep_cases p l v ph with ⟨_, h⟩ | ⟨_, h⟩ <;> rw [h]
  · exact .inl ⟨(State.setOut_rsp s l v).trans hn, State.setOut_responses s l v, (State.setOut_busy s l v).trans hb⟩
  · exact .inl ⟨hn, rfl, hb⟩

/-- A transfer is answered in the step that completes or aborts it (R180, R182). -/
theorem microStep_goesOnOrAnswers (p : Pins) : GoesOnOrAnswers s (microStep p s) := by
  cases hph : s.ph with simp only [microStep, hph]
  | idle => exact .inl ⟨hn, rfl, hb⟩
  | wrD => exact writeStep_goesOn hn hb ..
  | wrK => exact writeStep_goesOn hn hb ..
  | wrS => exact writeStep_goesOn hn hb ..
  | rd =>
    rcases microRd_cases p s with ⟨e, v, h⟩ | ⟨e, h⟩ <;> rw [h]
    · have hread : GoesOnOrAnswers ((s.record e).takeLevel v) ((s.record e).takeLevel v).waitOrAdvance :=
        waitOrAdvance_goesOnOrAnswers (by simpa using hn) (by simpa using hb)
      simpa [GoesOnOrAnswers] using hread
    · exact .inl ⟨hn, rfl, hb⟩
  | wait =>
    rcases microWait_cases p s with h | ⟨e, h⟩ <;> rw [h]
    · exact .inl ⟨hn, rfl, hb⟩
    · exact advance_goesOnOrAnswers (s := s.record e) hn hb
  | abort => exact .inr ⟨_, rfl, rfl, rfl⟩

end

theorem GoesOnOrAnswers.atMostOne {s t : State} (h : GoesOnOrAnswers s t) :
    (t.rsp = none ∧ t.responses = s.responses) ∨
      ∃ r, t.rsp = some r ∧ t.responses = s.responses ++ [r] ∧ t.busy = false :=
  h.imp_left fun ⟨hn, hs, _⟩ => ⟨hn, hs⟩

theorem GoesOnOrAnswers.ready_iff {s t : State} (h : GoesOnOrAnswers s t) : t.busy = false ↔ t.rspValidO = true := by
  rcases h with ⟨hn, _, hb⟩ | ⟨r, hr, _, hb⟩
  · simp [State.rspValidO, hn, hb]
  · simp [State.rspValidO, hr, hb]

theorem GoesOnOrAnswers.busy_iff {s t : State} (h : GoesOnOrAnswers s t) : t.busy = true ↔ t.rspValidO = false := by
  rw [← Bool.not_eq_false, h.ready_iff, Bool.not_eq_true]

end Sys2Proof.Machine
end

section
/-! PROOFS, family 30_encoding. A transfer on time: without failing accesses and with prompt waits every micro-step moves
the engine on by one place (R91, R172, R179, R180). -/

namespace Sys2Proof.Machine

/-- A transfer is going on; unlike State.Running this says nothing of the lines and of RX, so it holds of a transfer
that starts in any state. -/
structure State.UnderWay (s : State) : Prop where
  busy : s.busy = true
  width : s.mode.w.toNat ≤ 32
  seq : s.seq = synthesize s.tx s.mode
  idx : s.idx.toNat < seqLength s.mode.w.toNat
  notIdle : s.ph ≠ .idle
  notAbort : s.ph ≠ .abort
  /-- WAIT, the fifth place of an index, is taken only when a delay is configured. -/
  place : s.ph.eventsDone < stepsPerIndex s.delayMs

/-- The number of micro-steps behind an engine whose waits took one step each: all of the indices below IDX, and those of
IDX itself. -/
def State.position (s : State) : Nat := stepsPerIndex s.delayMs * s.idx.toNat + s.ph.eventsDone

/-- The number of micro-steps of the whole transfer. -/
def State.duration (s : State) : Nat := stepsPerIndex s.delayMs * seqLength s.mode.w.toNat

/-- The transfer has completed: the block is ready, and the word received is its response (R180). -/
structure State.Completed (s : State) : Prop where
  ready : s.busy = false
  rxvalid : s.rxvalid = true
  rsp : s.rsp = some (rspWord .ok s.rx)

/-- From `s` to `t` the transfer moves on by one place, past the last of which it has completed. -/
def MovesOn (s t : State) : Prop :=
  (t.UnderWay ∧ t.position = s.position + 1) ∨ (t.Completed ∧ s.position + 1 = s.duration)

theorem stepsPerIndex_bounds (ms : BitVec 16) : 4 ≤ stepsPerIndex ms ∧ stepsPerIndex ms ≤ 5 := by
  unfold stepsPerIndex; split <;> decide

theorem State.UnderWay.position_lt {s : State} (h : s.UnderWay) : s.position < s.duration := by
  calc s.position
    _ < stepsPerIndex s.delayMs * s.idx.toNat + stepsPerIndex s.delayMs := Nat.add_lt_add_left h.place _
    _ = stepsPerIndex s.delayMs * (s.idx.toNat + 1) := (Nat.mul_succ ..).symm
    _ ≤ s.duration := Nat.mul_le_mul_left _ h.idx

/-- The place within the index, from the position. -/
theorem State.UnderWay.position_mod {s : State} (h : s.UnderWay) :
    s.position % stepsPerIndex s.delayMs = s.ph.eventsDone := by
  rw [State.position, Nat.mul_add_mod, Nat.mod_eq_of_lt h.place]

theorem State.UnderWay.tick {s : State} (h : s.UnderWay) : s.tick.UnderWay := { h with }

theorem State.UnderWay.record {s : State} (h : s.UnderWay) (e : Event) : (s.record e).UnderWay := { h with }

theorem State.UnderWay.takeLevel {s : State} (h : s.UnderWay) (v : Level) : (s.takeLevel v).UnderWay := by
  rw [takeLevel_eq]; exact { h with }

section
variable {s : State} (h : s.UnderWay)
include h

/-- An access that does not fail takes the engine to the next phase of the index (R173 to R175). -/
theorem State.UnderWay.writeStep_movesOn {p : Pins} (hp : p.ioFault = false) (l : OutLine) (v : Level) {ph : Phase}
    (hph : ph.eventsDone = s.ph.eventsDone + 1) (hlt : ph.eventsDone < 4) (hi : ph ≠ .idle) (ha : ph ≠ .abort) :
    MovesOn s (s.writeStep p l v ph) := by
  rcases s.writeStep_cases p l v ph with ⟨_, hc⟩ | ⟨hf, _⟩
  · have hplace := hlt.trans_le (stepsPerIndex_bounds s.delayMs).1
    rw [hc]
    refine .inl ⟨?_, ?_⟩
    · exact {
        busy := by simpa using h.busy
        width := by simpa using h.width
        seq := by simpa using h.seq
        idx := by simpa using h.idx
        notIdle := hi
        notAbort := ha
        place := by simpa [-Phase.eventsDone] using hplace }
    · simp [State.position, hph, -Phase.eventsDone, Nat.add_assoc]
  · simp [hp] at hf

/-- After the last place of an index comes the next index, or the transfer has completed (R179, R180). -/
theorem State.UnderWay.advance_movesOn (hlast : s.ph.eventsDone + 1 = stepsPerIndex s.delayMs) :
    MovesOn s s.advance := by
  have hpos : s.position + 1 = stepsPerIndex s.delayMs * (s.idx.toNat + 1) := by
    rw [State.position, Nat.add_assoc, hlast, Nat.mul_succ]
  rcases s.advance_cases with ⟨heq, hc⟩ | ⟨hn, hc⟩ <;> rw [hc]
  · refine .inr ⟨⟨rfl, rfl, rfl⟩, ?_⟩
    rw [hpos, heq, len_sub_one h.width h.seq]
    rfl
  · obtain ⟨hsucc, hlt⟩ := idx_succ h.width h.seq h.idx hn
    refine .inl ⟨?_, ?_⟩
    · exact { h with
        idx := by simp only [hsucc, seqLength]; omega
        notIdle := nofun
        notAbort := nofun
        place := Nat.lt_of_lt_of_le (by decide : 0 < 4) (stepsPerIndex_bounds s.delayMs).1 }
    · rw [hpos, State.position, hsucc]
      rfl

/-- The read is the fourth place of an index; a wait follows when a delay is configured (R176). -/
theorem State.UnderWay.waitOrAdvance_movesOn (hp : s.ph = .rd) : MovesOn s s.waitOrAdvance := by
  rcases s.waitOrAdvance_cases with ⟨hd, hc⟩ | ⟨hd, hc⟩ <;> rw [hc]
  · exact h.advance_movesOn (by simp [hp, stepsPerIndex, hd])
  · refine .inl ⟨?_, by simp [State.position, hp, Nat.add_assoc]⟩
    exact { h with
      notIdle := nofun
      notAbort := nofun
      place := by simp [stepsPerIndex, hd] }

theorem State.UnderWay.microRd_movesOn (hp : s.ph = .rd) {p : Pins} (hf : p.ioFault = false) :
    MovesOn s (microRd p s) := by
  unfold microRd
  rcases s.pinRead_cases p with ⟨_, hc⟩ | ⟨hf', _⟩
  · rw [hc]
    generalize s.misoLevel p = v
    have hread := ((h.record (.read (some v))).takeLevel v).waitOrAdvance_movesOn (by simpa using hp)
    simpa [MovesOn, State.position, State.duration] using hread
  · simp [hf] at hf'

/-- WAIT, answered at once, is the last place of an index with a delay (R178, R226). -/
theorem State.UnderWay.microWait_movesOn (hp : s.ph = .wait) {p : Pins} (hw : p.waitDone = true) :
    MovesOn s (microWait p s) := by
  have hplace : 4 < stepsPerIndex s.delayMs := by simpa [hp] using h.place
  have hlast : s.ph.eventsDone + 1 = stepsPerIndex s.delayMs := by
    have := (stepsPerIndex_bounds s.delayMs).2
    simp only [hp, Phase.eventsDone]
    omega
  unfold microWait
  rw [if_pos hw]
  exact (h.record _).advance_movesOn hlast

/-- Every micro-step whose access does not fail, or whose wait is answered, moves the transfer on. -/
theorem State.UnderWay.microStep_movesOn {p : Pins} (hf : s.ph.eventsDone < 4 → p.ioFault = false)
    (hw : s.ph.eventsDone = 4 → p.waitDone = true) : MovesOn s (microStep p s) := by
  cases hph : s.ph with simp only [microStep, hph]
  | idle => exact absurd hph h.notIdle
  | wrD => exact h.writeStep_movesOn (hf (by simp [hph])) _ _ (by simp [hph]) (by decide) nofun nofun
  | wrK => exact h.writeStep_movesOn (hf (by simp [hph])) _ _ (by simp [hph]) (by decide) nofun nofun
  | wrS => exact h.writeStep_movesOn (hf (by simp [hph])) _ _ (by simp [hph]) (by decide) nofun nofun
  | rd => exact h.microRd_movesOn hph (hf (by simp [hph]))
  | wait => exact h.microWait_movesOn hph (hw (by simp [hph]))
  | abort => exact absurd hph h.notAbort

end

end Sys2Proof.Machine
end

section
/-! PROOFS, family 30_encoding. The run of a transfer on time. -/

namespace Sys2Proof.Machine

/-- A run goes to one state only: the step is a function. -/
theorem Runs.unique {n : Nat} {s t u : State} (ht : Runs n s t) (hu : Runs n s u) : t = u :=
  Host.Outcome.next.inj (ht.symm.trans hu)

/-- One more step at the end of a run. -/
theorem Runs.snoc {n : Nat} {s t u : State} (h : Runs n s t) (hst : step t = .next u) : Runs (n + 1) s u := by
  induction n generalizing s with
  | zero =>
    obtain rfl := runs_zero_iff.mp h
    exact runs_succ_iff.mpr ⟨u, hst, runs_zero_iff.mpr rfl⟩
  | succ n ih =>
    obtain ⟨v, hv, hr⟩ := runs_succ_iff.mp h
    exact runs_succ_iff.mpr ⟨v, hv, ih hr⟩

/-- `v` is `k` steps into the transfer that `s` starts, with `k` steps of the inputs of `s` used up. -/
structure OnSchedule (s : State) (k : Nat) (v : State) : Prop where
  underWay : v.UnderWay
  position : v.position = k
  mode : v.mode = s.mode
  delayMs : v.delayMs = s.delayMs
  pins : ∀ j, v.env.pinsAt j = s.env.pinsAt (k + j)
  rst : ∀ j, v.env.rstAt j = s.env.rstAt (k + j)

theorem OnSchedule.duration {s v : State} {k : Nat} (h : OnSchedule s k v) : v.duration = s.duration := by
  rw [State.duration, h.mode, h.delayMs, State.duration]

section
variable {s : State} (hr : s.Unreset s.duration) (ha : s.Answers (stepsPerIndex s.delayMs) s.duration)
include hr ha

/-- The step from place `k`: to the next one, or from the last to the end of the transfer. -/
theorem OnSchedule.step_cases {k : Nat} {v : State} (h : OnSchedule s k v) : ∃ w, step v = .next w ∧
    (OnSchedule s (k + 1) w ∨ (w.Completed ∧ k + 1 = s.duration)) := by
  have hk : k < s.duration := by rw [← h.duration, ← h.position]; exact h.underWay.position_lt
  have hmod : k % stepsPerIndex s.delayMs = v.ph.eventsDone := by
    rw [← h.position, ← h.delayMs]; exact h.underWay.position_mod
  obtain ⟨hf, hw⟩ := ha k hk
  rw [hmod] at hf hw
  have hnow : v.env.now = s.env.pinsAt k := h.pins 0
  have hrst : v.env.rstAt 0 = false := (h.rst 0).trans (hr k hk)
  refine ⟨_, step_micro hrst h.underWay.notIdle, ?_⟩
  rw [hnow]
  have keep := microStep_keepsSettings (s.env.pinsAt k) v.tick
  rcases h.underWay.tick.microStep_movesOn hf hw with ⟨hu, hpos⟩ | ⟨hc, hpos⟩
  · refine .inl ⟨hu, ?_, keep.mode.trans h.mode, keep.delayMs.trans h.delayMs, fun j => ?_, fun j => ?_⟩
    · rw [hpos, ← h.position]; rfl
    · rw [keep.env, State.tick_env, Env.tick_pinsAt, h.pins, Nat.add_assoc, Nat.add_comm 1]
    · rw [keep.env, State.tick_env, Env.tick_rstAt, h.rst, Nat.add_assoc, Nat.add_comm 1]
  · refine .inr ⟨hc, ?_⟩
    rw [← h.position, ← h.duration]
    exact hpos

/-- Every place of the transfer is reached on time. -/
theorem OnSchedule.reaches {t : State} (h : OnSchedule s 0 t) {k : Nat} (hk : k < s.duration) :
    ∃ v, Runs k t v ∧ OnSchedule s k v := by
  induction k with
  | zero => exact ⟨t, runs_zero_iff.mpr rfl, h⟩
  | succ k ih =>
    obtain ⟨v, hv, hs⟩ := ih (by omega)
    obtain ⟨w, hw, hs' | ⟨_, hlast⟩⟩ := hs.step_cases hr ha
    · exact ⟨w, hv.snoc hw, hs'⟩
    · omega

/-- After the last place, and not before, the transfer has completed. -/
theorem OnSchedule.completes {t : State} (h : OnSchedule s 0 t) :
    ∃ u, Runs s.duration t u ∧ u.Completed ∧ ∀ k v, k < s.duration → Runs k t v → v.busy = true := by
  have hpos : 0 < s.duration := Nat.mul_pos (by have := (stepsPerIndex_bounds s.delayMs).1; omega) (Nat.succ_pos _)
  obtain ⟨v, hv, hs⟩ := h.reaches hr ha (Nat.sub_lt hpos one_pos)
  obtain ⟨u, hu, hs' | ⟨hc, _⟩⟩ := hs.step_cases hr ha
  · have := hs'.underWay.position_lt
    rw [hs'.position, hs'.duration] at this
    omega
  · refine ⟨u, Nat.sub_add_cancel hpos ▸ hv.snoc hu, hc, fun k v hk hv => ?_⟩
    obtain ⟨v', hv', hs'⟩ := h.reaches hr ha hk
    exact hv.unique hv' ▸ hs'.underWay.busy

end

/-- The transfer that starts in `s` is at its first place (R171). -/
theorem onSchedule_start (d : DataWord) {s : State} (hw : s.mode.w.toNat ≤ 32) :
    OnSchedule s 0 { s.loadWord d with rx := 0#32, rxvalid := false, busy := true, idx := 0#7, ph := .wrD } where
  underWay := {
    busy := rfl
    width := hw
    seq := rfl
    idx := Nat.succ_pos _
    notIdle := nofun
    notAbort := nofun
    place := Nat.lt_of_lt_of_le (by decide : 0 < 4) (stepsPerIndex_bounds s.delayMs).1 }
  position := rfl
  mode := rfl
  delayMs := rfl
  pins j := by rw [Nat.zero_add]; rfl
  rst j := by rw [Nat.zero_add]; rfl

end Sys2Proof.Machine
end

section
/-! PROOFS, family 30_encoding. The obligations. -/

open Sys2Proof Sys2Proof.Machine

/-- Settles O2: the decoder evaluates each of the twelve words. -/
theorem specWordsDecode : Obligations.SpecWordsDecode :=
  ⟨rfl, rfl, rfl, rfl, rfl, rfl, rfl, rfl, rfl, rfl, rfl, rfl⟩

/-- Settles O3: the word of a command lies in the command's row, and each operand field of it, as a
number, is the operand. -/
theorem decodeInvertsEncode : Obligations.DecodeInvertsEncode := decode_encode

/-- Settles O4: a word of a row is the row's opcode and its operand bits, which are what the encoder puts together. -/
theorem encodeInvertsDecode : Obligations.EncodeInvertsDecode := fun _ _ h => encode_of_decode h

/-- Settles O5: match and mask of a row say that the opcode is the row's and the reserved bits are 0. -/
theorem decodeFollowsTheFormats : Obligations.DecodeFollowsTheFormats := by
  intro w
  have mode := inRow_iff_mask w 1#4 (k := 10) (by decide)
  have delay := inRow_iff_mask w 2#4 (k := 16) (by decide)
  have synth := inRow_iff_mask w 3#4 (k := 32) (by decide)
  have xfer := inRow_iff_mask w 4#4 (k := 32) (by decide)
  refine ⟨fun h => (mode.mpr h).decode_mode, fun h => (delay.mpr h).decode_delay,
    fun h => (synth.mpr h).decode_synth, fun h => (xfer.mpr h).decode_xfer, fun hm hd hs hx => ?_⟩
  rcases inRow_or_illegal w with h | h | h | h | h
  · exact absurd (mode.mp h) hm
  · exact absurd (delay.mp h) hd
  · exact absurd (synth.mp h) hs
  · exact absurd (xfer.mp h) hx
  · exact decode_illegal h

/-- Settles O6: a number in range is the value of its field, and the word of a command is the sum of its fields. -/
theorem assemblerLinesGiveTheirWords : Obligations.AssemblerLinesGiveTheirWords := by
  refine ⟨fun c p w hc hp hw => ?_, fun ms hms => ?_, fun d hd => ⟨?_, ?_⟩, rfl, fun n w hn hw => ?_,
    fun d c p w dly hd hc hp hw hdly => ⟨?_, rfl, ?_⟩⟩
  · simp [AsmLine.assemble, AsmLine.wellFormed, bitOk, widthOk, hc, hp, hw, modeWord_toNat]
  · simp [AsmLine.assemble, AsmLine.wellFormed, msOk, hms, delayWord_toNat]
  · simp [AsmLine.assemble, AsmLine.wellFormed, dataOk, hd, synthWord_toNat]
  · simp [AsmLine.assemble, AsmLine.wellFormed, dataOk, hd, xferWord_toNat]
  · have hhigh : n / 2 ≤ 1 := by omega
    have hlow : n % 2 ≤ 1 := by omega
    simp [AsmLine.assemble, AsmLine.wellFormed, bitOk, widthOk, hn, hw, hhigh, hlow]
  · simp [AsmLine.assemble, AsmLine.wellFormed, bitOk, widthOk, msOk, dataOk, hd, hc, hp, hw, hdly, modeWord_toNat,
      delayWord_toNat, xferWord_toNat]
  · simp [AsmLine.assemble, AsmLine.wellFormed, bitOk, widthOk, dataOk, hd, hc, hp, hw, modeWord_toNat,
      synthWord_toNat]

/-- Settles O7: without reset the idle block accepts the word presented. -/
theorem stepRunsTheDecodedCommand : Obligations.StepRunsTheDecodedCommand := by
  intro s w rest i hr hp hb hw hi
  rw [step_idle hr hp, idleStep_word hb hw, acceptWord_ok hi]
  rfl

/-- Settles O8: an illegal word is in no row, so it decodes to no command, and a word in a row to one. -/
theorem illegalWordIsAnswered : Obligations.IllegalWordIsAnswered := by
  refine ⟨fun s w rest hr hp hb hw hill => ?_, fun w => ?_, .inl rfl, fun cpol cpha w => ⟨fun hill => ?_, ?_⟩⟩
  · rw [step_idle hr hp, idleStep_word hb hw, acceptWord_illegal hill (s := s.tick.presented rest) hb]
    rfl
  · rcases inRow_or_illegal w with h | h | h | h | h
    · exact .inr ⟨_, h.decode_mode⟩
    · exact .inr ⟨_, h.decode_delay⟩
    · exact .inr ⟨_, h.decode_synth⟩
    · exact .inr ⟨_, h.decode_xfer⟩
    · exact .inl h
  · obtain ⟨e, he⟩ := decode_illegal hill
    simp [decode_encode] at he
  · exact decode_encode _

/-- Settles O9: a busy block takes a reset or a micro-step, and neither looks at the words presented. -/
theorem busyTurnsCommandsAway : Obligations.BusyTurnsCommandsAway := by
  refine ⟨fun i s hb => ?_, fun s hb => ⟨busyNext s, step_busy hb, busyNext_pending s, fun ws => ?_⟩⟩
  · rw [exec_eq, hb, if_pos rfl]
  · calc step (s.presented ws)
      _ = .next (busyNext (s.presented ws)) := step_busy hb
      _ = .next ((busyNext s).presented ws) := by rw [busyNext_presented]

/-- Settles O10: with nothing to come, and in a pause, the idle step is the tick of the inputs. -/
theorem nothingHappensWithoutACommand : Obligations.NothingHappensWithoutACommand := by
  intro s hr hp hb hw
  rw [step_idle hr hp]
  rcases hw with hw | ⟨rest, hw⟩
  · rw [idleStep_nothing hb hw, hw, List.tail_nil, ← hw]
    rfl
  · rw [idleStep_pause hb hw, hw]
    rfl

/-- Settles O47, by the kinds of step: an accepted word and a micro-step go on unanswered or answer once, and an idle step
does neither. -/
theorem oneResponsePerCommand : Obligations.OneResponsePerCommand := by
  intro s t hinv hr hst
  rcases step_cases hst with ⟨hr', _⟩ | ⟨_, hp, rfl⟩ | ⟨_, _, hb, _, rest, i, hw, _, rfl⟩ |
    ⟨_, _, hb, _, rest, _, hw, _, rfl⟩ | ⟨_, _, hb, rest, hw, rfl⟩ | ⟨_, hp, hw, rfl⟩
  · simp [hr] at hr'
  · have hb : s.busy = true := hinv.busy.mpr hp
    have h := microStep_goesOnOrAnswers (s := s.tick) rfl hb s.env.now
    exact ⟨h.atMostOne, fun _ => h.ready_iff, fun hb' => by simp [hb] at hb'⟩
  · have h := acceptStep_goesOnOrAnswers i (s := s.tick.presented rest) rfl hb
    exact ⟨h.atMostOne, fun hb' => by simp [hb] at hb', fun _ _ _ _ => h.busy_iff⟩
  · have h := raise_answers (s := s.tick.presented rest) hb .illegalCommand
    exact ⟨h.atMostOne, fun hb' => by simp [hb] at hb', fun _ _ _ _ => h.busy_iff⟩
  · exact ⟨.inl ⟨rfl, rfl⟩, fun hb' => by simp [hb] at hb', fun _ _ _ h => by simp [hw] at h⟩
  · have hb : s.busy = false := by simpa [hp] using hinv.busy
    refine ⟨.inl ⟨rfl, rfl⟩, fun hb' => by simp [hb] at hb', fun _ _ _ h => ?_⟩
    simp [hb, h] at hw

/-- Settles O50: each micro-step before the last moves the engine on by one place of 4·L or 5·L, and the last
completes the transfer. -/
theorem transferTakesFourOrFiveStepsPerIndex : Obligations.TransferTakesFourOrFiveStepsPerIndex := by
  intro d s hb hm _ hw hd hr ha
  have hstart := onSchedule_start d hw
  obtain ⟨u, hrun, hc, hbusy⟩ := hstart.completes hr ha
  exact ⟨_, u, ⟨hb, exec_xfer_ok hb hm hd, hstart.underWay.busy, hbusy, hrun, hc.ready⟩, hc.rxvalid, hc.rsp⟩

end

section
/-! PROOFS, family 40_mode_config. MODE by cases: a legal width makes its Mode current, another raises the error. -/

namespace Sys2Proof.Machine

theorem widthLegal_eq_false_iff (w : BitVec 8) : widthLegal w = false ↔ w.toNat < 1 ∨ 32 < w.toNat := by
  rw [← Bool.not_eq_true, widthLegal_iff]
  omega

theorem modeStep_legal {w : BitVec 8} (h : widthLegal w = true) (s : State) (cpol cpha : Level) :
    s.modeStep cpol cpha w =
      State.finish { s with mode := { cpol := cpol, cpha := cpha, w := w }, mvalid := true } .ok 0#32 := by
  rw [State.modeStep, if_pos h]

theorem modeStep_illegal {w : BitVec 8} (h : widthLegal w = false) (s : State) (cpol cpha : Level) :
    s.modeStep cpol cpha w = s.raise .invalidConfiguration := by
  rw [State.modeStep, if_neg (Bool.eq_false_iff.mp h)]

/-- After a command the state is as it was, BUSY = 1, or as its accepting step leaves it (R91). -/
theorem exec_next {i : Instr} {s t : State} (h : exec i s = .next t) :
    (s.busy = true ∧ t = s) ∨ (s.busy = false ∧ t = acceptStep i s) := by
  rw [exec_eq] at h
  obtain rfl := Host.Outcome.next.inj h
  cases hb : s.busy
  · exact .inr ⟨rfl, rfl⟩
  · exact .inl ⟨rfl, rfl⟩

/-- An accepting step writes MVALID in a MODE with a legal width only, together with the three Mode fields (R121). -/
theorem acceptStep_mvalid_cases (i : Instr) (s : State) :
    (∃ cpol cpha w, i = .mode cpol cpha w ∧ widthLegal w = true ∧
      (acceptStep i s).mode = { cpol := cpol, cpha := cpha, w := w } ∧ (acceptStep i s).mvalid = true) ∨
    (acceptStep i s).mvalid = s.mvalid := by
  cases i with
  | mode cpol cpha w =>
    rcases modeStep_cases s cpol cpha w with ⟨hw, h⟩ | h <;> rw [acceptStep, h]
    · exact .inl ⟨cpol, cpha, w, rfl, hw, rfl, rfl⟩
    · exact .inr rfl
  | delay ms => exact .inr rfl
  | synth d => rcases synthStep_cases s d with ⟨_, h⟩ | ⟨_, _, h⟩ <;> rw [acceptStep, h] <;> exact .inr rfl
  | xfer d => rcases xferStep_cases s d with ⟨_, h⟩ | ⟨_, _, h⟩ <;> rw [acceptStep, h] <;> exact .inr rfl

/-- Without reset a step keeps MVALID, or accepts a MODE with a legal width, which becomes the Mode (R124). -/
theorem step_mvalid_cases {s t : State} (hr : s.env.rstAt 0 = false) (hst : step s = .next t) :
    t.mvalid = s.mvalid ∨ (t.mvalid = true ∧ s.busy = false ∧ ∃ word rest cpol cpha w,
      s.env.pending = some word :: rest ∧ decode word = .ok (.mode cpol cpha w) ∧ 1 ≤ w.toNat ∧ w.toNat ≤ 32 ∧
      t.mode = { cpol := cpol, cpha := cpha, w := w }) := by
  rcases step_cases hst with ⟨hr', _⟩ | ⟨_, _, rfl⟩ | ⟨_, _, hb, word, rest, i, hp, hi, rfl⟩ |
    ⟨_, _, _, _, _, _, _, _, rfl⟩ | ⟨_, _, _, _, _, rfl⟩ | ⟨_, _, _, rfl⟩
  · simp [hr] at hr'
  · exact .inl (microStep_keepsSettings s.env.now s.tick).mvalid
  · rcases acceptStep_mvalid_cases i (s.tick.presented rest) with ⟨cpol, cpha, w, rfl, hw, hmode, hm⟩ | hkeep
    · obtain ⟨h1, h32⟩ := (widthLegal_iff w).mp hw
      exact .inr ⟨hm, hb, word, rest, cpol, cpha, w, hp, hi, h1, h32, hmode⟩
    · exact .inl hkeep
  · exact .inl rfl
  · exact .inl rfl
  · exact .inl rfl

end Sys2Proof.Machine
end

section
/-! PROOFS, family 40_mode_config. Which status codes a step can answer and bring into LASTERR (R35, R100, R211). -/

namespace Sys2Proof.Machine

theorem Status.code_inj {a b : Status} : a.code = b.code ↔ a = b := by
  cases a <;> cases b <;> decide

/-- From `s` to `t` no command ends, or one ends with a status of `E`, in the response and in LASTERR alike. -/
def EndsWithin (E : List Status) (s t : State) : Prop :=
  (t.rsp = none ∧ t.lasterr = s.lasterr) ∨ ∃ e ∈ E, ∃ d, t.rsp = some (rspWord e d) ∧ t.lasterr = e

/-- The step from `s` to `t` answers with status `e`, or brings `e` into LASTERR. -/
def Reports (e : Status) (s t : State) : Prop :=
  (∃ r, t.rsp = some r ∧ r.extractLsb' 32 3 = e.code) ∨ (s.lasterr ≠ e ∧ t.lasterr = e)

theorem EndsWithin.mem_of_reports {E : List Status} {e : Status} {s t : State} (h : EndsWithin E s t)
    (hr : Reports e s t) : e ∈ E := by
  rcases h with ⟨hn, hl⟩ | ⟨e', he', d, hd, hl⟩
  · rcases hr with ⟨r, hr, _⟩ | ⟨hne, he⟩
    · simp [hn] at hr
    · exact absurd (hl.symm.trans he) hne
  · rcases hr with ⟨r, hr, hc⟩ | ⟨_, he⟩
    · obtain rfl : rspWord e' d = r := Option.some.inj (hd.symm.trans hr)
      rw [rspWord_status, Status.code_inj] at hc
      exact hc ▸ he'
    · exact (hl.symm.trans he) ▸ he'

theorem finish_endsWithin {E : List Status} {e : Status} (he : e ∈ E) (s u : State) (d : DataWord) :
    EndsWithin E s (u.finish e d) :=
  .inr ⟨e, he, d, rfl, rfl⟩

/-- A reset answers nothing and leaves LASTERR at OK (R241). -/
theorem hardReset_not_reports {e : Status} (he : e ≠ .ok) (s : State) : ¬ Reports e s s.hardReset := by
  rintro (⟨_, hr, _⟩ | ⟨_, hl⟩)
  · have hn : s.hardReset.rsp = none := rfl
    simp [hn] at hr
  · exact he hl.symm

/-- The statuses a command can have in its accepting step (R122, R126, R218). -/
def acceptStatuses : Instr → List Status
  | .mode _ _ w => if widthLegal w then [.ok] else [.invalidConfiguration]
  | .delay _ => [.ok]
  | .synth _ => [.ok, .noMode, .valueOutOfRange]
  | .xfer _ => [.noMode, .valueOutOfRange]

theorem acceptStep_endsWithin (i : Instr) {s : State} (hn : s.rsp = none) :
    EndsWithin (acceptStatuses i) s (acceptStep i s) := by
  cases i with
  | mode cpol cpha w =>
    cases hw : widthLegal w
    · rw [acceptStep, modeStep_illegal hw]
      exact finish_endsWithin (by simp [acceptStatuses, hw]) ..
    · rw [acceptStep, modeStep_legal hw]
      exact finish_endsWithin (by simp [acceptStatuses, hw]) ..
  | delay ms => exact finish_endsWithin (by simp [acceptStatuses]) ..
  | synth d =>
    rcases s.wordError_cases d with ⟨_, h⟩ | ⟨_, _, h⟩ | ⟨_, _, h⟩ <;> rw [acceptStep, State.synthStep, h] <;>
      exact finish_endsWithin (by simp [acceptStatuses]) ..
  | xfer d =>
    rcases s.wordError_cases d with ⟨_, h⟩ | ⟨_, _, h⟩ | ⟨_, _, h⟩ <;> rw [acceptStep, State.xferStep, h]
    · exact finish_endsWithin (by simp [acceptStatuses]) ..
    · exact finish_endsWithin (by simp [acceptStatuses]) ..
    · exact .inl ⟨hn, rfl⟩

theorem invalidConfiguration_mem_acceptStatuses {i : Instr} (h : .invalidConfiguration ∈ acceptStatuses i) :
    ∃ cpol cpha w, i = .mode cpol cpha w ∧ widthLegal w = false := by
  cases i with
  | mode cpol cpha w =>
    refine ⟨cpol, cpha, w, rfl, ?_⟩
    cases hw : widthLegal w
    · rfl
    · simp [acceptStatuses, hw] at h
  | delay ms => simp [acceptStatuses] at h
  | synth d => simp [acceptStatuses] at h
  | xfer d => simp [acceptStatuses] at h

section
variable {s : State} (hn : s.rsp = none)
include hn

theorem advance_endsWithin : EndsWithin [.ok, .portError] s s.advance := by
  rcases s.advance_cases with ⟨_, h⟩ | ⟨_, h⟩ <;> rw [h]
  · exact finish_endsWithin (by simp) ..
  · exact .inl ⟨hn, rfl⟩

theorem waitOrAdvance_endsWithin : EndsWithin [.ok, .portError] s s.waitOrAdvance := by
  rcases s.waitOrAdvance_cases with ⟨_, h⟩ | ⟨_, h⟩ <;> rw [h]
  · exact advance_endsWithin hn
  · exact .inl ⟨hn, rfl⟩

theorem writeStep_endsWithin (p : Pins) (l : OutLine) (v : Level) (ph : Phase) :
    EndsWithin [.ok, .portError] s (s.writeStep p l v ph) := by
  rcases s.writeStep_cases p l v ph with ⟨_, h⟩ | ⟨_, h⟩ <;> rw [h]
  · exact .inl ⟨(State.setOut_rsp s l v).trans hn, State.setOut_lasterr s l v⟩
  · exact .inl ⟨hn, rfl⟩

/-- A transfer that has started ends with OK or PortError (R180, R182). -/
theorem microStep_endsWithin (p : Pins) : EndsWithin [.ok, .portError] s (microStep p s) := by
  cases hph : s.ph with simp only [microStep, hph]
  | idle => exact .inl ⟨hn, rfl⟩
  | wrD => exact writeStep_endsWithin hn ..
  | wrK => exact writeStep_endsWithin hn ..
  | wrS => exact writeStep_endsWithin hn ..
  | rd =>
    rcases microRd_cases p s with ⟨e, v, h⟩ | ⟨e, h⟩ <;> rw [h]
    · have hread : EndsWithin [.ok, .portError] ((s.record e).takeLevel v) ((s.record e).takeLevel v).waitOrAdvance :=
        waitOrAdvance_endsWithin (by simpa using hn)
      simpa [EndsWithin] using hread
    · exact .inl ⟨hn, rfl⟩
  | wait =>
    rcases microWait_cases p s with h | ⟨e, h⟩ <;> rw [h]
    · exact .inl ⟨hn, rfl⟩
    · exact advance_endsWithin (s := s.record e) hn
  | abort => exact finish_endsWithin (by simp) ..

end

/-- Whatever the state, a step that reports InvalidConfiguration accepts a MODE with an illegal width (R122). -/
theorem modeAccepted_of_reports_invalidConfiguration {s t : State} (hst : step s = .next t)
    (hrep : Reports .invalidConfiguration s t) :
    s.busy = false ∧ ∃ word rest cpol cpha w, s.env.pending = some word :: rest ∧
      decode word = .ok (.mode cpol cpha w) ∧ (w.toNat < 1 ∨ 32 < w.toNat) := by
  rcases step_cases hst with ⟨_, rfl⟩ | ⟨_, _, rfl⟩ | ⟨_, _, hb, word, rest, i, hp, hi, rfl⟩ |
    ⟨_, _, _, _, rest, _, _, _, rfl⟩ | ⟨_, _, _, rest, _, rfl⟩ | ⟨_, _, _, rfl⟩
  · exact absurd hrep (hardReset_not_reports (by decide) s)
  · have h : EndsWithin [.ok, .portError] s (microStep s.env.now s.tick) := microStep_endsWithin (s := s.tick) rfl _
    exact absurd (h.mem_of_reports hrep) (by decide)
  · have h : EndsWithin (acceptStatuses i) s (acceptStep i (s.tick.presented rest)) :=
      acceptStep_endsWithin i (s := s.tick.presented rest) rfl
    obtain ⟨cpol, cpha, w, rfl, hw⟩ := invalidConfiguration_mem_acceptStatuses (h.mem_of_reports hrep)
    exact ⟨hb, word, rest, cpol, cpha, w, hp, hi, (widthLegal_eq_false_iff w).mp hw⟩
  · have h : EndsWithin [.illegalCommand] s ((s.tick.presented rest).raise .illegalCommand) :=
      finish_endsWithin (by simp) ..
    exact absurd (h.mem_of_reports hrep) (by decide)
  · have h : EndsWithin [] s (s.tick.presented rest) := .inl ⟨rfl, rfl⟩
    exact absurd (h.mem_of_reports hrep) (by decide)
  · have h : EndsWithin [] s s.tick := .inl ⟨rfl, rfl⟩
    exact absurd (h.mem_of_reports hrep) (by decide)

end Sys2Proof.Machine
end

section
/-! PROOFS, family 40_mode_config. The obligations. -/

open Sys2Proof Sys2Proof.Machine

/-- Settles O13: the two cases of the width. -/
theorem modeMakesItsModeCurrent : Obligations.ModeMakesItsModeCurrent := by
  intro cpol cpha w s hb
  rw [exec_ready (.mode cpol cpha w) hb, acceptStep]
  refine ⟨fun h1 h32 => ?_, fun hw => ?_⟩
  · rw [modeStep_legal ((widthLegal_iff w).mpr ⟨h1, h32⟩)]
    rfl
  · rw [modeStep_illegal ((widthLegal_eq_false_iff w).mpr hw)]
    rfl

/-- Settles O14: an accepted MODE by the two cases of its width, a step by the statuses each kind of step can have. -/
theorem invalidConfigurationExactlyForBadWidths : Obligations.InvalidConfigurationExactlyForBadWidths := by
  refine ⟨fun cpol cpha w s t hb h => ?_, fun s t r hst hr hc => ?_, fun s t hne hst he => ?_⟩
  · rw [exec_ready (.mode cpol cpha w) hb, acceptStep] at h
    obtain rfl := Host.Outcome.next.inj h
    rw [← widthLegal_eq_false_iff]
    cases hw : widthLegal w
    · rw [modeStep_illegal hw]
      exact ⟨⟨fun _ => rfl, fun _ => rfl⟩, ⟨fun _ => rfl, fun _ => rfl⟩⟩
    · rw [modeStep_legal hw, State.finish_lasterr, State.finish_rsp]
      decide
  · exact modeAccepted_of_reports_invalidConfiguration hst (.inl ⟨r, hr, hc⟩)
  · exact modeAccepted_of_reports_invalidConfiguration hst (.inr ⟨hne, he⟩)

/-- Settles O15: the accepting step of DELAY has one case. -/
theorem delaySetsTheDelay : Obligations.DelaySetsTheDelay := by
  intro ms s hb
  rw [exec_ready (.delay ms) hb]
  rfl

/-- Settles O20: MODE is not accepted, makes its Mode current, or raises the error. -/
theorem modeFrame : Obligations.ModeFrame := by
  intro cpol cpha w s t h
  rcases exec_next h with ⟨_, rfl⟩ | ⟨_, rfl⟩
  · exact ⟨rfl, rfl, rfl, rfl, rfl, rfl, rfl, rfl, rfl, rfl, rfl, rfl, rfl, rfl⟩
  · rcases modeStep_cases s cpol cpha w with ⟨_, e⟩ | e <;> rw [acceptStep, e] <;>
      exact ⟨rfl, rfl, rfl, rfl, rfl, rfl, rfl, rfl, rfl, rfl, rfl, rfl, rfl, rfl⟩

/-- Settles O21: DELAY is not accepted, or takes its one path. -/
theorem delayFrame : Obligations.DelayFrame := by
  intro ms s t h
  rcases exec_next h with ⟨_, rfl⟩ | ⟨_, rfl⟩ <;>
    exact ⟨rfl, rfl, rfl, rfl, rfl, rfl, rfl, rfl, rfl, rfl, rfl, rfl, rfl, rfl, rfl⟩

/-- Settles O42: a step that keeps MVALID does neither, and any other one accepts a legal MODE. -/
theorem onlyModeConfigures : Obligations.OnlyModeConfigures := by
  intro s t hr hst
  rcases step_mvalid_cases hr hst with hkeep | ⟨hm, hmode⟩
  · exact ⟨fun h => hkeep.trans h, fun h ht => absurd (h.symm.trans (hkeep.symm.trans ht)) (by decide)⟩
  · exact ⟨fun _ => hm, fun _ _ => hmode⟩

end

section
/-! PROOFS, family 41_sequence_synth. The accepting steps of SYNTH and XFER: what a failing check answers
(R153, R154, R213), and the registers and the response of a SYNTH that is accepted (R152). -/

namespace Sys2Proof.Machine

theorem wordError_noMode {s : State} (d : DataWord) (hm : s.mvalid = false) : s.wordError d = some .noMode :=
  if_pos hm

theorem wordError_outOfRange {s : State} {d : DataWord} (hm : s.mvalid = true) (hd : 2 ^ s.mode.w.toNat ≤ d.toNat) :
    s.wordError d = some .valueOutOfRange := by
  rcases s.wordError_cases d with ⟨h, _⟩ | ⟨_, _, h⟩ | ⟨_, h, _⟩
  · exact absurd (hm.symm.trans h) (by decide)
  · exact h
  · omega

theorem exec_synth_error {s : State} {d : DataWord} {e : Status} (hb : s.busy = false)
    (he : s.wordError d = some e) : exec (.synth d) s = .next (s.raise e) := by
  rw [exec_ready (.synth d) hb, acceptStep, State.synthStep, he]

theorem exec_xfer_error {s : State} {d : DataWord} {e : Status} (hb : s.busy = false)
    (he : s.wordError d = some e) : exec (.xfer d) s = .next (s.raise e) := by
  rw [exec_ready (.xfer d) hb, acceptStep, State.xferStep, he]

/-- The registers after a synthesis: the sequence functions below L, and 0 from L up (R36, R152). -/
theorem synthesize_bits_ite (d : DataWord) (m : Mode) (hw : m.w.toNat ≤ 32) (i : Nat) :
    (synthesize d m).cs.getLsbD i = (if i < seqLength m.w.toNat then csSeq m.w.toNat i else false) ∧
    (synthesize d m).ck.getLsbD i = (if i < seqLength m.w.toNat then clkSeq m.cpol m.w.toNat i else false) ∧
    (synthesize d m).dout.getLsbD i = (if i < seqLength m.w.toNat then doutSeq d m.cpha m.w.toNat i else false) ∧
    (synthesize d m).tr.getLsbD i = (if i < seqLength m.w.toNat then trigSeq m.cpha m.w.toNat i else false) := by
  simpa only [← Bool.if_false_right] using synthesize_bits d m hw i

/-- A response with status 0 is its data as a number (R100). -/
theorem rspWord_ok {n : Nat} (h : n < 2 ^ 32) : rspWord .ok (BitVec.ofNat 32 n) = BitVec.ofNat 35 n := by
  have h35 : n < 2 ^ 35 := by omega
  apply BitVec.eq_of_toNat_eq
  rw [show rspWord .ok (BitVec.ofNat 32 n) = (0#3 ++ BitVec.ofNat 32 n : BitVec (3 + 32)) from rfl, BitVec.toNat_append,
    BitVec.toNat_ofNat, BitVec.toNat_ofNat, BitVec.toNat_ofNat, Nat.mod_eq_of_lt h, Nat.mod_eq_of_lt h35]
  simp

end Sys2Proof.Machine
end

section
/-! PROOFS, family 41_sequence_synth. Every sequence is padding, then W pairs of elements, then padding again (R142 to
R148). -/

namespace Sys2Proof.Machine

/-- From index `a` on there are `w` pairs, the k-th one `x k`, `y k`; every other element of `f` is the padding `p`. -/
structure PaddedPairs {α : Type} (f : Nat → α) (a w : Nat) (p : α) (x y : Nat → α) : Prop where
  before : ∀ i, i < a → f i = p
  fst : ∀ k, k < w → f (a + 2 * k) = x k
  snd : ∀ k, k < w → f (a + 2 * k + 1) = y k
  after : ∀ i, a + 2 * w ≤ i → f i = p

theorem map_range_pairs {α : Type} (f : Nat → α) (w : Nat) :
    (List.range (2 * w)).map f = (List.range w).flatMap fun k => [f (2 * k), f (2 * k + 1)] := by
  induction w with
  | zero => rfl
  | succ w ih => simp [Nat.mul_succ, List.range_succ, ih]

/-- The string of such a sequence. -/
theorem PaddedPairs.map_range {α : Type} {f : Nat → α} {a w : Nat} {p : α} {x y : Nat → α}
    (h : PaddedPairs f a w p x y) {n b : Nat} (hn : n = a + 2 * w + b) : (List.range n).map f =
      List.replicate a p ++ (List.range w).flatMap (fun k => [x k, y k]) ++ List.replicate b p := by
  have hbefore : (List.range a).map f = List.replicate a p :=
    List.eq_replicate_iff.mpr ⟨by simp, by simpa using h.before⟩
  have hpairs : (List.range (2 * w)).map (fun i => f (a + i)) = (List.range w).flatMap fun k => [x k, y k] := by
    rw [map_range_pairs]
    refine List.flatMap_congr fun k hk => ?_
    have hk : k < w := List.mem_range.mp hk
    rw [h.fst k hk, ← Nat.add_assoc, h.snd k hk]
  have hafter : (List.range b).map (fun i => f (a + 2 * w + i)) = List.replicate b p :=
    List.eq_replicate_iff.mpr ⟨by simp, by simpa using fun i _ => h.after _ (Nat.le_add_right _ i)⟩
  rw [hn, List.range_add, List.range_add, List.map_append, List.map_append, List.map_map, List.map_map, hbefore]
  exact congrArg₂ (fun l r => List.replicate a p ++ l ++ r) hpairs hafter

/-- Where both elements of a pair are the same, the sequence changes at the bounds of the pairs only. -/
theorem PaddedPairs.change {α : Type} {f : Nat → α} {a w : Nat} {p : α} {x : Nat → α}
    (h : PaddedPairs f a w p x x) {i : Nat} (hne : f (i + 1) ≠ f i) : ∃ k, k ≤ w ∧ i + 1 = a + 2 * k := by
  by_contra hno
  have hno : ∀ k, k ≤ w → i + 1 ≠ a + 2 * k := by simpa using hno
  have h0 := hno 0 (Nat.zero_le w)
  have hw := hno w le_rfl
  refine hne ?_
  rcases Nat.lt_or_ge i a with hlt | hge
  · rw [h.before i hlt, h.before (i + 1) (by omega)]
  · rcases Nat.lt_or_ge i (a + 2 * w) with hin | hout
    · have hk : (i - a) / 2 < w := by omega
      have hsucc := hno ((i - a) / 2 + 1) hk
      have hi : i = a + 2 * ((i - a) / 2) := by omega
      rw [hi, h.snd _ hk, h.fst _ hk]
    · rw [h.after i hout, h.after (i + 1) (by omega)]

/-- Pairs that are all alike are one pair repeated. -/
theorem flatMap_range_const {α : Type} (w : Nat) (l : List α) :
    (List.range w).flatMap (fun _ => l) = (List.replicate w l).flatten := by
  rw [List.flatMap_def, List.map_const', List.length_range]

end Sys2Proof.Machine
end

section
/-! PROOFS, family 41_sequence_synth. The four sequences by their padding and pairs, and by arithmetic. -/

namespace Sys2Proof.Machine

theorem csSeq_eq_ite (w i : Nat) : csSeq w i = if 1 ≤ i ∧ i ≤ 2 * w then false else true := rfl

theorem csSeq_eq_true_iff (w i : Nat) : csSeq w i = true ↔ i = 0 ∨ 2 * w < i := by
  rw [csSeq_eq_ite]
  split <;> simp <;> omega

theorem csSeq_eq_false_iff (w i : Nat) : csSeq w i = false ↔ 1 ≤ i ∧ i ≤ 2 * w := by
  rw [csSeq_eq_ite]
  split <;> simp <;> omega

theorem csSeq_pairs (w : Nat) : PaddedPairs (csSeq w) 1 w true (fun _ => false) (fun _ => false) where
  before i hi := (csSeq_eq_true_iff w i).mpr (by omega)
  fst k hk := (csSeq_eq_false_iff w _).mpr (by omega)
  snd k hk := (csSeq_eq_false_iff w _).mpr (by omega)
  after i hi := (csSeq_eq_true_iff w i).mpr (by omega)

theorem clk0_eq_true_iff (w i : Nat) : clk0 w i = true ↔ 1 ≤ i ∧ i ≤ 2 * w ∧ i % 2 = 0 := decide_eq_true_iff

theorem clkSeq_false (w i : Nat) : clkSeq false w i = clk0 w i := Bool.xor_false _

theorem clkSeq_true (w i : Nat) : clkSeq true w i = !clkSeq false w i := by
  rw [clkSeq_false]
  exact Bool.xor_true _

theorem clkSeq_idle {w i : Nat} (cpol : Level) (h : ¬(1 ≤ i ∧ i ≤ 2 * w ∧ i % 2 = 0)) :
    clkSeq cpol w i = cpol := by
  rw [clkSeq, Bool.eq_false_iff.mpr (mt (clk0_eq_true_iff w i).mp h), Bool.false_xor]

theorem clkSeq_active {w i : Nat} (cpol : Level) (h : 1 ≤ i ∧ i ≤ 2 * w ∧ i % 2 = 0) :
    clkSeq cpol w i = !cpol := by
  rw [clkSeq, (clk0_eq_true_iff w i).mpr h, Bool.true_xor]

theorem clkSeq_pairs (cpol : Level) (w : Nat) :
    PaddedPairs (clkSeq cpol w) 1 w cpol (fun _ => cpol) (fun _ => !cpol) where
  before i hi := clkSeq_idle cpol (by omega)
  fst k hk := clkSeq_idle cpol (by omega)
  snd k hk := clkSeq_active cpol (by omega)
  after i hi := clkSeq_idle cpol (by omega)

theorem lead_bounds (cpha : Level) : 1 ≤ lead cpha ∧ lead cpha ≤ 2 := by cases cpha <;> decide

/-- The pairs are behind `lead` padding elements and before 3 - `lead`. -/
theorem length_eq_lead (cpha : Level) (w : Nat) : 2 * w + 3 = lead cpha + 2 * w + (3 - lead cpha) := by
  have := lead_bounds cpha
  omega

/-- DataOut carries the k-th bit at both indices of the k-th pair (R146). -/
theorem doutSeqWith_bit (idle : Level) (d : DataWord) (cpha : Level) {w k e : Nat} (hk : k < w) (he : e ≤ 1) :
    doutSeqWith idle d cpha w (lead cpha + 2 * k + e) = wireBit d w k := by
  rw [doutSeqWith, if_pos (by omega), show (lead cpha + 2 * k + e - lead cpha) / 2 = k by omega]

theorem doutSeqWith_pairs (idle : Level) (d : DataWord) (cpha : Level) (w : Nat) :
    PaddedPairs (doutSeqWith idle d cpha w) (lead cpha) w idle (wireBit d w) (wireBit d w) where
  before i hi := if_neg (by omega)
  fst k hk := doutSeqWith_bit idle d cpha hk (Nat.zero_le 1)
  snd k hk := doutSeqWith_bit idle d cpha hk le_rfl
  after i hi := if_neg (by have := lead_bounds cpha; omega)

theorem doutSeq_pairs (d : DataWord) (cpha : Level) (w : Nat) :
    PaddedPairs (doutSeq d cpha w) (lead cpha) w false (wireBit d w) (wireBit d w) :=
  doutSeqWith_pairs Config.doutIdle d cpha w

/-- A sample position is the second index of a pair, or the first one for CPHA = 1 without the shift (R148, C1). -/
theorem samplePosWith_eq (cpha : Level) {shift : Nat} (hs : shift ≤ 1) (k : Nat) :
    ∃ e, e ≤ 1 ∧ samplePosWith shift cpha k = lead cpha + 2 * k + e := by
  cases cpha
  · exact ⟨1, le_rfl, by simp [samplePosWith, lead]; omega⟩
  · exact ⟨shift, hs, by simp [samplePosWith, lead]; omega⟩

theorem trigSeq_pairs (cpha : Level) (w : Nat) :
    PaddedPairs (trigSeq cpha w) (lead cpha) w false (fun _ => false) (fun _ => true) := by
  have hc := cpha.toNat_le
  constructor <;> intro i hi <;> rw [trigSeq_eq]
  case snd => exact decide_eq_true (by unfold lead; omega)
  all_goals exact decide_eq_false (by unfold lead at *; omega)

theorem trigSeq_eq_true_iff (cpha : Level) (w i : Nat) :
    trigSeq cpha w i = true ↔ ∃ k, k < w ∧ i = 2 + cpha.toNat + 2 * k := by
  simpa [trigSeq, samplePosWith, Config.trig1Shift] using trigSeqWith_iff Config.trig1Shift cpha w i

/-- t(k) is the second index of the k-th pair (R149). -/
theorem samplePos_eq (cpha : Level) (k : Nat) : 2 + cpha.toNat + 2 * k = lead cpha + 2 * k + 1 := by
  unfold lead
  omega

/-- The padding has no sample position, and every pair has one. -/
theorem countP_trigSeq (cpha : Level) (w : Nat) : (List.range (2 * w + 3)).countP (trigSeq cpha w) = w := by
  have hstring := congrArg (List.countP id) ((trigSeq_pairs cpha w).map_range (length_eq_lead cpha w))
  rw [flatMap_range_const, List.countP_map] at hstring
  simpa [List.countP_flatten, List.countP_replicate] using hstring

/-- For CPHA = 0 the sample positions are the active levels of the clock (R149). -/
theorem trigSeq_false (w i : Nat) : trigSeq false w i = clk0 w i := by
  rw [trigSeq_eq, clk0]
  exact decide_eq_decide.mpr (by rw [Bool.toNat_false]; omega)

end Sys2Proof.Machine
end

section
/-! PROOFS, family 41_sequence_synth. Register images as numbers (R9, R36, R142, R143, R149). -/

namespace Sys2Proof.Machine

theorem seqImage_toNat_lt (f : Nat → Level) {n : Nat} (hn : n ≤ 67) : (seqImage f n).toNat < 2 ^ n := by
  refine Nat.lt_pow_two_of_testBit _ fun i hi => ?_
  rw [BitVec.testBit_toNat, seqImage_getLsbD f n i hn, decide_eq_false (by omega), Bool.false_and]

/-- Each element adds its power of two. -/
theorem seqImage_toNat_succ (f : Nat → Level) {n : Nat} (hn : n < 67) :
    (seqImage f (n + 1)).toNat = (seqImage f n).toNat + (f n).toNat * 2 ^ n := by
  rw [seqImage]
  cases f n
  · simp
  · have hor := Nat.two_pow_add_eq_or_of_lt (seqImage_toNat_lt f hn.le) 1
    rw [Nat.mul_one, Nat.or_comm] at hor
    rw [if_pos rfl, BitVec.toNat_or, BitVec.toNat_twoPow_of_lt hn, ← hor, Bool.toNat_true, Nat.one_mul, Nat.add_comm]

/-- Elements that are 0 add nothing. -/
theorem seqImage_toNat_add_zeros {f : Nat → Level} {a n : Nat} (hn : a + n ≤ 67)
    (h : ∀ i, a ≤ i → i < a + n → f i = false) : (seqImage f (a + n)).toNat = (seqImage f a).toNat := by
  induction n with
  | zero => rfl
  | succ n ih =>
    rw [← Nat.add_assoc, seqImage_toNat_succ f (by omega), h (a + n) (by omega) (by omega),
      ih (by omega) fun i hi hlt => h i hi (by omega)]
    simp

/-- The images of a sequence and of its complement add up to ones. -/
theorem seqImage_toNat_not (f : Nat → Level) {n : Nat} (hn : n ≤ 67) :
    (seqImage (fun i => !f i) n).toNat + (seqImage f n).toNat = 2 ^ n - 1 := by
  induction n with
  | zero => rfl
  | succ n ih =>
    have := ih (by omega)
    have := Nat.two_pow_pos n
    rw [seqImage_toNat_succ _ hn, seqImage_toNat_succ _ hn, pow_succ]
    cases f n <;> simp <;> omega

/-- The image of padding 0 and `w` pairs 0, 1. -/
theorem PaddedPairs.seqImage_toNat {f : Nat → Level} {a w : Nat}
    (h : PaddedPairs f a w false (fun _ => false) (fun _ => true)) {n b : Nat}
    (hn : n = a + 2 * w + b) (hn67 : n ≤ 67) :
    (seqImage f n).toNat = ((List.range w).map fun k => 2 ^ (a + 2 * k + 1)).sum := by
  subst hn
  have hpairs : ∀ m, m ≤ w →
      (seqImage f (a + 2 * m)).toNat = ((List.range m).map fun k => 2 ^ (a + 2 * k + 1)).sum := by
    intro m hm
    induction m with
    | zero =>
      have hbefore := seqImage_toNat_add_zeros (f := f) (a := 0) (n := a) (by omega)
        fun i _ hi => h.before i (by omega)
      simpa [seqImage] using hbefore
    | succ m ih =>
      rw [Nat.mul_succ, ← Nat.add_assoc, seqImage_toNat_succ f (by omega), seqImage_toNat_succ f (by omega),
        h.fst m hm, h.snd m hm, ih (by omega), List.range_succ]
      simp
  rw [seqImage_toNat_add_zeros hn67 fun i hi _ => h.after i hi, hpairs w le_rfl]

theorem seqImage_csSeq_toNat {w : Nat} (hw : w ≤ 32) :
    (seqImage (csSeq w) (2 * w + 3)).toNat = 1 + 2 ^ (2 * w + 1) + 2 ^ (2 * w + 2) := by
  have hzeros : (seqImage (csSeq w) (1 + 2 * w)).toNat = 1 := by
    rw [seqImage_toNat_add_zeros (by omega) fun i h1 hi => (csSeq_eq_false_iff w i).mpr (by omega)]
    simp [seqImage, (csSeq_eq_true_iff w 0).mpr]
  have hlast : ∀ j, csSeq w (2 * w + 1 + j) = true := fun j => (csSeq_eq_true_iff w _).mpr (by omega)
  rw [seqImage_toNat_succ _ (by omega), seqImage_toNat_succ _ (by omega), Nat.add_comm (2 * w) 1, hzeros,
    Nat.add_comm 1 (2 * w), hlast 0, hlast 1]
  simp

/-- The image of the sample positions t(k) (R149). -/
theorem seqImage_trigSeq_toNat (cpha : Level) {w : Nat} (hw : w ≤ 32) :
    (seqImage (trigSeq cpha w) (2 * w + 3)).toNat = ((List.range w).map fun k => 2 ^ (2 + cpha.toNat + 2 * k)).sum := by
  rw [(trigSeq_pairs cpha w).seqImage_toNat (length_eq_lead cpha w) (by omega)]
  exact congrArg List.sum (List.map_congr_left fun k _ => congrArg (2 ^ ·) (samplePos_eq cpha k).symm)

end Sys2Proof.Machine
end

section
/-! PROOFS, family 41_sequence_synth. The obligations. -/

open Sys2Proof Sys2Proof.Machine

/-- Settles O16: the three outcomes of the checks; the registers are those of `synthesize`. -/
theorem synthLoadsTheSequences : Obligations.SynthLoadsTheSequences := by
  intro d s hb
  refine ⟨fun hm => exec_synth_error hb (wordError_noMode d hm),
    fun hm hd => exec_synth_error hb (wordError_outOfRange hm hd), fun hm _ hw hd => ?_⟩
  refine ⟨synthesize d s.mode, ?_, synthesize_len d s.mode hw, fun i _ => ?_⟩
  · rw [exec_synth_ok hb hm hd, ← rspWord_ok (by omega)]
    rfl
  · exact synthesize_bits_ite d s.mode hw i

/-- Settles O18: without a Mode the first check of both commands fails. -/
theorem noModeAnswersSynthAndXfer : Obligations.NoModeAnswersSynthAndXfer := fun d _ hb hm =>
  ⟨exec_synth_error hb (wordError_noMode d hm), exec_xfer_error hb (wordError_noMode d hm)⟩

/-- Settles O19: with a Mode the second check decides, and past it both commands are accepted. -/
theorem valueOutOfRangeExactlyFromTwoToTheW : Obligations.ValueOutOfRangeExactlyFromTwoToTheW := by
  intro d s hb hm
  refine ⟨fun hd => ?_, fun hd => ⟨fun t ht => ?_, fun t ht => ?_⟩⟩
  · exact ⟨exec_synth_error hb (wordError_outOfRange hm hd), exec_xfer_error hb (wordError_outOfRange hm hd)⟩
  · obtain rfl := Host.Outcome.next.inj ((exec_synth_ok hb hm hd).symm.trans ht)
    rfl
  · obtain rfl := Host.Outcome.next.inj ((exec_xfer_ok hb hm hd).symm.trans ht)
    exact ⟨rfl, rfl, rfl⟩

/-- Settles O22: SYNTH is not accepted, answers an error, or loads the word, and then no check fails. -/
theorem synthFrame : Obligations.SynthFrame := by
  intro d s t h
  rcases exec_next h with ⟨_, rfl⟩ | ⟨_, rfl⟩
  · exact ⟨rfl, rfl, rfl, rfl, rfl, rfl, rfl, rfl, rfl, rfl, rfl, rfl, rfl, fun _ => ⟨rfl, rfl, rfl⟩⟩
  · rcases synthStep_cases s d with ⟨_, e⟩ | ⟨hm, hd, e⟩ <;> rw [acceptStep, e]
    · exact ⟨rfl, rfl, rfl, rfl, rfl, rfl, rfl, rfl, rfl, rfl, rfl, rfl, rfl, fun _ => ⟨rfl, rfl, rfl⟩⟩
    · refine ⟨rfl, rfl, rfl, rfl, rfl, rfl, rfl, rfl, rfl, rfl, rfl, rfl, rfl, ?_⟩
      rintro (hno | hout)
      · exact absurd (hm.symm.trans hno) (by decide)
      · omega

/-- Settles O31: the 2W zeros are W pairs of zeros between 1 and 11. -/
theorem chipSelectString : Obligations.ChipSelectString := by
  refine fun w => ⟨csSeq_eq_ite w, ?_, seqImage_csSeq_toNat⟩
  have hzeros : (List.replicate w [false, false]).flatten = List.replicate (2 * w) false := by
    rw [Nat.mul_comm]
    exact List.flatten_replicate_replicate (m := 2)
  rw [← hzeros, ← flatMap_range_const]
  exact (csSeq_pairs w).map_range (b := 2) (by omega)

/-- Settles O32: the string by its pairs; the image for CPOL = 0 is that of the sample positions of CPHA = 0, and for
CPOL = 1 its complement. -/
theorem clockString : Obligations.ClockString := by
  refine fun w => ⟨fun cpol => ?_, fun i => ?_, clkSeq_true w, fun hw => ?_⟩
  · rw [← flatMap_range_const]
    exact (clkSeq_pairs cpol w).map_range (b := 2) (by omega)
  · rw [clkSeq_false, clk0_eq_true_iff]
  · have hsame : clkSeq false w = trigSeq false w :=
      funext fun i => (clkSeq_false w i).trans (trigSeq_false w i).symm
    have hsum := seqImage_trigSeq_toNat false hw
    have hnot := seqImage_toNat_not (trigSeq false w) (n := 2 * w + 3) (by omega)
    rw [hsum] at hnot
    rw [funext (clkSeq_true w), hsame]
    exact ⟨hsum, Nat.eq_sub_of_add_eq hnot⟩

/-- Settles O33: the padding and pairs of DataOut, for each phase. -/
theorem dataOutString : Obligations.DataOutString := fun d w =>
  ⟨(doutSeq_pairs d false w).map_range (length_eq_lead false w),
    (doutSeq_pairs d true w).map_range (length_eq_lead true w)⟩

/-- Settles O34: the padding and pairs of SampleTrigger, for each phase. -/
theorem sampleTriggerString : Obligations.SampleTriggerString := by
  intro w
  rw [← flatMap_range_const]
  exact ⟨(trigSeq_pairs false w).map_range (length_eq_lead false w),
    (trigSeq_pairs true w).map_range (length_eq_lead true w)⟩

/-- Settles O35: a sample position is the second index of a pair, so DataOut carries its bit there. -/
theorem samplePositionsAndLevels : Obligations.SamplePositionsAndLevels := by
  intro d cpol cpha w
  refine ⟨countP_trigSeq cpha w, trigSeq_eq_true_iff cpha w, fun k hk => ⟨?_, ?_, ?_⟩, trigSeq_false w,
    ⟨?_, ?_, ?_⟩, seqImage_trigSeq_toNat cpha⟩
  · rw [samplePos_eq]
    exact (doutSeq_pairs d cpha w).snd k hk
  · cases cpha
    · exact clkSeq_active cpol (by rw [Bool.toNat_false]; omega)
    · exact clkSeq_idle cpol (by rw [Bool.toNat_true]; omega)
  · rw [csSeq_eq_true_iff]
    cases cpha <;> simp <;> omega
  · exact (trigSeq_pairs cpha w).before 0 (lead_bounds cpha).1
  · rw [trigSeq_eq]
    exact decide_eq_false (by omega)
  · exact (trigSeq_pairs cpha w).after _ (by have := lead_bounds cpha; omega)

/-- Settles O36: every sample position lies in the pair of its bit. -/
theorem samplesMeetTheirBitForBothParameters : Obligations.SamplesMeetTheirBitForBothParameters := by
  intro idle cpha shift d w k hs hk
  obtain ⟨e, he, hpos⟩ := samplePosWith_eq cpha hs k
  rw [hpos]
  exact doutSeqWith_bit idle d cpha hk he

/-- Settles O38: DataOut changes at the bounds of its pairs, the other two lines where their arithmetic says. -/
theorem edgeTable : Obligations.EdgeTable := by
  intro d cpol cpha w i hw hi
  refine ⟨?_, ?_, (doutSeq_pairs d cpha w).change⟩
  · rw [csSeq_eq_ite, csSeq_eq_ite]
    split <;> split <;> simp <;> omega
  · rw [clkSeq, clkSeq, Ne, Bool.xor_left_inj, clk0, clk0, decide_eq_decide]
    omega

end

section
/-! PROOFS, family 42_transfer_engine. The micro-steps by what they find on their inputs, and the four outcomes one
can have (R173 to R182). -/

namespace Sys2Proof.Machine

theorem writeStep_eq_ite (s : State) (p : Pins) (l : OutLine) (v : Level) (ph : Phase) :
    s.writeStep p l v ph =
      if p.ioFault then { s.record (.write l v false) with ph := .abort }
      else { (s.setOut l v).record (.write l v true) with ph := ph } := by
  rcases s.writeStep_cases p l v ph with ⟨hf, h⟩ | ⟨hf, h⟩ <;> simp [h, hf]

theorem State.waitOrAdvance_wait {s : State} (h : s.delayMs ≠ 0#16) : s.waitOrAdvance = { s with ph := .wait } :=
  if_neg h

theorem State.waitOrAdvance_advance {s : State} (h : s.delayMs = 0#16) : s.waitOrAdvance = s.advance :=
  if_pos h

/-- The read of IDX returned `v`: RX takes it when the trigger is set (R176, R177). -/
def State.readLevel (s : State) (v : Level) : State :=
  { s.record (.read (some v)) with rx := (s.takeLevel v).rx }

theorem takeLevel_record (s : State) (v : Level) : (s.record (.read (some v))).takeLevel v = s.readLevel v := by
  rw [takeLevel_eq, State.takeLevel_rx, State.readLevel, State.takeLevel_rx]
  rfl

/-- A read that succeeds: RX takes the level when the trigger is set, and the engine waits or advances (R176). -/
theorem microRd_ok {p : Pins} (hf : p.ioFault = false) (s : State) :
    microRd p s = (s.readLevel (s.misoLevel p)).waitOrAdvance := by
  rcases s.pinRead_cases p with ⟨_, h⟩ | ⟨hf', _⟩
  · simp only [microRd, h, takeLevel_record]
  · simp [hf] at hf'

theorem microRd_fault {p : Pins} (hf : p.ioFault = true) (s : State) :
    microRd p s = { s.record (.read none) with ph := .abort } := by
  rcases s.pinRead_cases p with ⟨hf', _⟩ | ⟨_, h⟩
  · simp [hf] at hf'
  · simp only [microRd, h]

theorem microWait_done {p : Pins} (hd : p.waitDone = true) (s : State) :
    microWait p s = (s.record (.wait s.delayMs)).advance := by
  simp [microWait, hd]

theorem microWait_pending {p : Pins} (hd : p.waitDone = false) (s : State) : microWait p s = s := by
  simp [microWait, hd]

theorem microStep_abort {s : State} (hp : s.ph = .abort) (p : Pins) : microStep p s = microAbort s := by
  simp only [microStep, hp]

/-- `e` is the event of an access that fails in phase `ph` (R173 to R176). -/
def FailsIn (ph : Phase) (e : Event) : Prop :=
  match ph with
  | .wrD => ∃ v, e = .write .mosi v false
  | .wrK => ∃ v, e = .write .sclk v false
  | .wrS => ∃ v, e = .write .csn v false
  | .rd => e = .read none
  | .idle | .wait | .abort => False

/-- `x` is RX once the read of IDX is behind the engine (R176, R177). -/
def AfterRead (s : State) (x : DataWord) : Prop :=
  (s.ph = .rd ∧ ∃ v, x = (s.takeLevel v).rx) ∨ (s.ph = .wait ∧ x = s.rx)

/-- What a micro-step can do from `s` to `t`: the transfer goes on, an access fails, the last index is complete, or the
abort ends the transfer. -/
inductive MicroOutcome (p : Pins) (s t : State) : Prop
  | goesOn (busy : t.busy = s.busy) (notAbort : t.ph ≠ .abort) (responses : t.responses = s.responses)
  | failed (e : Event) (fault : p.ioFault = true) (access : FailsIn s.ph e)
      (eq : t = { s.record e with ph := .abort })
  | completed (e : Event) (x : DataWord) (read : AfterRead s x) (last : s.idx = s.seq.len - 1#7)
      (eq : t = State.complete { s.record e with rx := x })
  | aborted (ph : s.ph = .abort) (eq : t = microAbort s)

theorem advance_outcome (p : Pins) {s : State} (e : Event) {x : DataWord} (hx : AfterRead s x) :
    MicroOutcome p s (State.advance { s.record e with rx := x }) := by
  rcases State.advance_cases { s.record e with rx := x } with ⟨hlast, h⟩ | ⟨_, h⟩ <;> rw [h]
  · exact .completed e x hx hlast rfl
  · exact .goesOn rfl nofun rfl

theorem writeStep_outcome {p : Pins} {s : State} {l : OutLine} {v : Level} {ph : Phase}
    (hfail : FailsIn s.ph (.write l v false)) (hph : ph ≠ .abort) : MicroOutcome p s (s.writeStep p l v ph) := by
  rcases s.writeStep_cases p l v ph with ⟨_, h⟩ | ⟨hf, h⟩ <;> rw [h]
  · exact .goesOn (State.setOut_busy s l v) hph (State.setOut_responses s l v)
  · exact .failed _ hf hfail rfl

theorem microRd_outcome (p : Pins) {s : State} (hp : s.ph = .rd) : MicroOutcome p s (microRd p s) := by
  cases hf : p.ioFault with
  | true => exact .failed _ hf (by simp [FailsIn, hp]) (microRd_fault hf s)
  | false =>
    rw [microRd_ok hf]
    rcases (s.readLevel (s.misoLevel p)).waitOrAdvance_cases with ⟨_, h⟩ | ⟨_, h⟩ <;> rw [h]
    · exact advance_outcome p _ (.inl ⟨hp, _, rfl⟩)
    · exact .goesOn rfl nofun rfl

theorem microWait_outcome (p : Pins) {s : State} (hp : s.ph = .wait) : MicroOutcome p s (microWait p s) := by
  cases hd : p.waitDone with
  | true =>
    rw [microWait_done hd]
    exact advance_outcome p (.wait s.delayMs) (.inr ⟨hp, rfl⟩)
  | false =>
    rw [microWait_pending hd]
    exact .goesOn rfl (by simp [hp]) rfl

theorem microStep_outcome (p : Pins) {s : State} (hp : s.ph ≠ .idle) : MicroOutcome p s (microStep p s) := by
  cases hph : s.ph with simp only [microStep, hph]
  | idle => exact absurd hph hp
  | wrD => exact writeStep_outcome (by simp [FailsIn, hph]) nofun
  | wrK => exact writeStep_outcome (by simp [FailsIn, hph]) nofun
  | wrS => exact writeStep_outcome (by simp [FailsIn, hph]) nofun
  | rd => exact microRd_outcome p hph
  | wait => exact microWait_outcome p hph
  | abort => exact .aborted hph rfl

theorem Phase.access_of_ne {ph : Phase} (hi : ph ≠ .idle) (hw : ph ≠ .wait) (ha : ph ≠ .abort) :
    ph = .wrD ∨ ph = .wrK ∨ ph = .wrS ∨ ph = .rd := by
  cases ph with
  | idle => exact absurd rfl hi
  | wait => exact absurd rfl hw
  | abort => exact absurd rfl ha
  | _ => simp

/-- A failing access is always noticed (R181). -/
theorem microStep_fault {p : Pins} {s : State} (hp : s.ph = .wrD ∨ s.ph = .wrK ∨ s.ph = .wrS ∨ s.ph = .rd)
    (hf : p.ioFault = true) : ∃ e, FailsIn s.ph e ∧ microStep p s = { s.record e with ph := .abort } := by
  rcases hp with hp | hp | hp | hp <;> simp only [microStep, hp]
  · exact ⟨_, ⟨_, rfl⟩, by rw [microWrD, writeStep_eq_ite, if_pos hf]⟩
  · exact ⟨_, ⟨_, rfl⟩, by rw [microWrK, writeStep_eq_ite, if_pos hf]⟩
  · exact ⟨_, ⟨_, rfl⟩, by rw [microWrS, writeStep_eq_ite, if_pos hf]⟩
  · exact ⟨_, rfl, microRd_fault hf s⟩

/-- A failed access by its place in the index (R183). -/
theorem FailsIn.place {ph : Phase} {e : Event} (h : FailsIn ph e) : ph.eventsDone ≤ 3 ∧
    ((ph.eventsDone = 0 ∧ ∃ v, e = .write .mosi v false) ∨ (ph.eventsDone = 1 ∧ ∃ v, e = .write .sclk v false) ∨
      (ph.eventsDone = 2 ∧ ∃ v, e = .write .csn v false) ∨ (ph.eventsDone = 3 ∧ e = .read none)) := by
  cases ph with
  | wrD => exact ⟨by decide, .inl ⟨rfl, h⟩⟩
  | wrK => exact ⟨by decide, .inr (.inl ⟨rfl, h⟩)⟩
  | wrS => exact ⟨by decide, .inr (.inr (.inl ⟨rfl, h⟩))⟩
  | rd => exact ⟨by decide, .inr (.inr (.inr ⟨rfl, h⟩))⟩
  | idle => exact h.elim
  | wait => exact h.elim
  | abort => exact h.elim

theorem FailsIn.event_cases {ph : Phase} {e : Event} (h : FailsIn ph e) :
    e = .read none ∨ ∃ l v, e = .write l v false := by
  obtain ⟨_, ⟨_, v, rfl⟩ | ⟨_, v, rfl⟩ | ⟨_, v, rfl⟩ | ⟨_, rfl⟩⟩ := h.place
  · exact .inr ⟨_, v, rfl⟩
  · exact .inr ⟨_, v, rfl⟩
  · exact .inr ⟨_, v, rfl⟩
  · exact .inl rfl

/-- A sample shifts the level in at the bottom of RX (R177). -/
theorem sample_bits (s : State) (v : Level) :
    (s.sample v).rx.getLsbD 0 = v ∧ ∀ k, k < 31 → (s.sample v).rx.getLsbD (k + 1) = s.rx.getLsbD k := by
  refine ⟨by simp, fun k hk => ?_⟩
  have hk' : k + 1 < 32 := Nat.succ_lt_succ hk
  simp [hk', BitVec.getLsbD_eq_getElem (Nat.lt_of_succ_lt hk')]

end Sys2Proof.Machine
end

section
/-! PROOFS, family 42_transfer_engine. How a transfer ends: the last index, and the step that ends it. -/

namespace Sys2Proof.Machine

theorem busyNext_reset {s : State} (hr : s.env.rstAt 0 = true) : busyNext s = s.hardReset := if_pos hr

theorem busyNext_micro {s : State} (hr : s.env.rstAt 0 = false) : busyNext s = microStep s.env.now s.tick :=
  if_neg (Bool.eq_false_iff.mp hr)

theorem eq_busyNext {s t : State} (hb : s.busy = true) (hst : step s = .next t) : t = busyNext s :=
  Host.Outcome.next.inj (hst.symm.trans (step_busy hb))

/-- A step of a consistent busy block is a reset or a micro-step. -/
theorem State.Inv.busy_step {s t : State} (h : s.Inv) (hb : s.busy = true) (hst : step s = .next t) :
    (s.env.rstAt 0 = true ∧ t = s.hardReset) ∨ (s.env.rstAt 0 = false ∧ MicroOutcome s.env.now s.tick t) := by
  obtain rfl := eq_busyNext hb hst
  cases hr : s.env.rstAt 0 with
  | true => exact .inl ⟨rfl, busyNext_reset hr⟩
  | false => exact .inr ⟨rfl, busyNext_micro hr ▸ microStep_outcome _ (h.busy.mp hb)⟩

/-- A busy block uses up one step of its inputs. -/
theorem busyNext_env (s : State) : (busyNext s).env = s.env.tick := by
  unfold busyNext
  split
  · rfl
  · exact (microStep_keepsSettings s.env.now s.tick).env

/-- In the whole sequence every sample position occurs. -/
theorem samplesBelow_length (m : Mode) : samplesBelow m (2 * m.w.toNat + 3) = m.w.toNat := countP_trigSeq _ _

theorem AfterRead.ph {s : State} {x : DataWord} (h : AfterRead s x) : s.ph = .rd ∨ s.ph = .wait :=
  h.imp And.left And.left

theorem State.Running.afterRead_lt {s : State} (r : s.Running) (hw : s.mode.w.toNat ≤ 32) {x : DataWord}
    (hx : AfterRead s x) : x.toNat < 2 ^ samplesBelow s.mode (s.idx.toNat + 1) := by
  rcases hx with ⟨hp, v, rfl⟩ | ⟨hp, rfl⟩
  · exact r.takeLevel_rx_lt hw (by simp [hp]) v
  · simpa [State.indicesRead, hp] using r.rx

/-- Once the last index is read the three lines have their idle levels (R186). -/
theorem State.Running.idle_levels {s : State} (r : s.Running) (hp : s.ph = .rd ∨ s.ph = .wait)
    (hi : s.idx.toNat = 2 * s.mode.w.toNat + 2) :
    s.outMosi = false ∧ s.outSclk = s.mode.cpol ∧ s.outCsn = true := by
  rw [r.mosi (.inr (.inr hp)), r.sclk (.inr hp), r.csn hp, hi]
  have := lead_bounds s.mode.cpha
  exact ⟨(doutSeq_pairs s.tx s.mode.cpha s.mode.w.toNat).after _ (by omega), clkSeq_idle s.mode.cpol (by omega),
    csSeq_last s.mode.w.toNat⟩

/-- `v` is a state of the transfer started in `s`, `k` steps after its accepting step and before its end. -/
structure Midway (s : State) (k : Nat) (v : State) : Prop where
  inv : v.Inv
  busy : v.busy = true
  responses : v.responses = s.responses
  rst : ∀ j, v.env.rstAt j = s.env.rstAt (k + j)

/-- A step within the transfer. -/
theorem Midway.next {s v : State} {k : Nat} (h : Midway s k v) (hb : (busyNext v).busy = true) :
    Midway s (k + 1) (busyNext v) where
  inv := h.inv.step_inv (step_busy h.busy)
  busy := hb
  responses := by
    rcases h.inv.busy_step h.busy (step_busy h.busy) with ⟨_, hreset⟩ | ⟨_, hout⟩
    · rw [hreset] at hb
      exact absurd hb Bool.false_ne_true
    · cases hout with
      | goesOn _ _ responses => exact responses.trans h.responses
      | failed _ _ _ eq => rw [eq]; exact h.responses
      | completed _ _ _ _ eq => rw [eq] at hb; exact absurd hb Bool.false_ne_true
      | aborted _ eq => rw [eq] at hb; exact absurd hb Bool.false_ne_true
  rst j := by rw [busyNext_env, Env.tick_rstAt, h.rst, Nat.add_assoc, Nat.add_comm 1]

section
variable {d : DataWord} {s t u : State} {n : Nat} (h : EndsIn d s t n u) (hs : s.Inv)
include h hs

theorem EndsIn.midway {k : Nat} (hk : k < n) : ∃ v, Runs k t v ∧ Midway s k v := by
  induction k with
  | zero =>
    refine ⟨t, runs_zero_iff.mpr rfl, h.start_inv hs, h.started, ?_, fun j => ?_⟩ <;> rw [h.start_eq]
    · rfl
    · rw [Nat.zero_add]; rfl
  | succ k ih =>
    obtain ⟨v, hv, hmid⟩ := ih (Nat.lt_of_succ_lt hk)
    have hnext : Runs (k + 1) t (busyNext v) := hv.snoc (step_busy hmid.busy)
    exact ⟨_, hnext, hmid.next (h.before _ _ hk hnext)⟩

/-- The last step of a transfer. -/
theorem EndsIn.last_step : ∃ k v, n = k + 1 ∧ Midway s k v ∧ step v = .next u := by
  cases n with
  | zero =>
    have htu : t = u := runs_zero_iff.mp h.run
    exact absurd (h.started.symm.trans (htu ▸ h.ended)) (by decide)
  | succ k =>
    obtain ⟨v, hv, hmid⟩ := h.midway hs k.lt_succ_self
    have hstep : step v = .next (busyNext v) := step_busy hmid.busy
    exact ⟨k, v, rfl, hmid, (hv.snoc hstep).unique h.run ▸ hstep⟩

end

end Sys2Proof.Machine
end

section
/-! PROOFS, family 42_transfer_engine. The counts of a history, and the history of an aborted transfer (R183). -/

namespace Sys2Proof.Machine

@[simp] theorem slaveView_append (es fs : List Event) : slaveView (es ++ fs) = slaveView es ++ slaveView fs := by
  fun_induction slaveView es with
  | case1 => rfl
  | case2 l v es ih => simp [slaveView, ih]
  | case3 e es h ih => rw [List.cons_append, slaveView, ih]; exact h

@[simp] theorem readsIn_append (es fs : List Event) : readsIn (es ++ fs) = readsIn es + readsIn fs := by
  fun_induction readsIn es with
  | case1 => simp
  | case2 v es ih => simp [readsIn, ih]; omega
  | case3 e es h ih => rw [List.cons_append, readsIn, ih]; exact h

@[simp] theorem waitsIn_append (es fs : List Event) : waitsIn (es ++ fs) = waitsIn es + waitsIn fs := by
  fun_induction waitsIn es with
  | case1 => simp
  | case2 v es ih => simp [waitsIn, ih]; omega
  | case3 e es h ih => rw [List.cons_append, waitsIn, ih]; exact h

@[simp] theorem levelsRead_append (es fs : List Event) : levelsRead (es ++ fs) = levelsRead es ++ levelsRead fs := by
  fun_induction levelsRead es with
  | case1 => rfl
  | case2 v es ih => simp [levelsRead, ih]
  | case3 e es h ih => rw [List.cons_append, levelsRead, ih]; exact h

/-- `es` has `w` successful writes, `r` successful reads and `t` waits (R183). -/
structure Counts (es : List Event) (w r t : Nat) : Prop where
  writes : writesIn es = w
  reads : readsIn es = r
  waits : waitsIn es = t

theorem Counts.append {es fs : List Event} {w r t w' r' t' : Nat} (h : Counts es w r t) (h' : Counts fs w' r' t') :
    Counts (es ++ fs) (w + w') (r + r') (t + t') where
  writes := by rw [← h.writes, ← h'.writes]; simp [writesIn]
  reads := by rw [readsIn_append, h.reads, h'.reads]
  waits := by rw [waitsIn_append, h.waits, h'.waits]

theorem Counts.flatMap_range {f : Nat → List Event} {w r t : Nat} (h : ∀ i, Counts (f i) w r t) (n : Nat) :
    Counts ((List.range n).flatMap f) (n * w) (n * r) (n * t) := by
  induction n with
  | zero => simpa using (⟨rfl, rfl, rfl⟩ : Counts [] 0 0 0)
  | succ n ih => simpa [List.range_succ, Nat.succ_mul] using ih.append (h n)

namespace Job

variable {j : Job} {base es : List Event} {i k : Nat}

/-- The events of one index (R172). -/
theorem eventsAt_counts (j : Job) (i : Nat) (v : Level) :
    Counts (j.eventsAt i v) 3 1 (if j.delayMs = 0#16 then 0 else 1) := by
  by_cases hd : j.delayMs = 0#16
  · rw [eventsAt, indexEvents, if_neg (not_not.mpr hd), if_pos hd]
    exact ⟨rfl, rfl, rfl⟩
  · rw [eventsAt, indexEvents, if_pos hd, if_neg hd]
    exact ⟨rfl, rfl, rfl⟩

/-- The first three events of an index are its writes. -/
theorem take_eventsAt_counts (j : Job) (i : Nat) (v : Level) (hk : k ≤ 3) :
    Counts ((j.eventsAt i v).take k) k 0 0 := by
  interval_cases k <;> exact ⟨rfl, rfl, rfl⟩

/-- The counts in the middle of index i, before its read (R183). -/
theorem Recorded.counts (h : j.Recorded base i k es) (hk : k ≤ 3) : ∃ es', es = base ++ es' ∧
    Counts es' (3 * i + k) i (if j.delayMs = 0#16 then 0 else i) := by
  obtain ⟨m, _, rfl⟩ := h
  refine ⟨_, List.append_assoc .., ?_⟩
  have hc := (Counts.flatMap_range (fun i' => j.eventsAt_counts i' (m i')) i).append (j.take_eventsAt_counts i (m i) hk)
  simpa [Nat.mul_comm] using hc

/-- `es` ends with the failed access of index i, before which it follows the transfer. -/
def FailedAt (j : Job) (base : List Event) (i : Nat) (es : List Event) : Prop :=
  ∃ ph es' e, FailsIn ph e ∧ j.Recorded base i ph.eventsDone es' ∧ es = es' ++ [e]

end Job

/-- A state whose history follows the transfer `j`, also when an access has failed: to ABORT, and to the end. -/
structure FollowsAbort (j : Job) (base : List Event) (s : State) : Prop extends Follows j base s where
  inAbort : s.busy = true → s.ph = .abort → j.FailedAt base s.idx.toNat s.events
  ended : s.busy = false → s.lasterr = .portError →
    ∃ es, j.FailedAt base s.idx.toNat es ∧ s.events = es ++ [.force true]

theorem FollowsAbort.of_step {j : Job} {base : List Event} {s t : State} (hb : s.busy = true)
    (h : FollowsAbort j base s) (hst : step s = .next t) : FollowsAbort j base t := by
  have hnot : ¬s.busy = false := by simp [hb]
  have hnext : Follows j base t := h.toFollows.of_step hb hst
  rcases h.inv.busy_step hb hst with ⟨_, rfl⟩ | ⟨_, hout⟩
  · exact ⟨hnext, nofun, nofun⟩
  · cases hout with
    | goesOn busy notAbort _ =>
      exact ⟨hnext, fun _ hp => absurd hp notAbort, fun hn => absurd (busy.symm.trans hn) hnot⟩
    | failed e _ access eq =>
      have hp : s.ph ≠ .abort := fun hp => by simp [FailsIn, hp] at access
      subst eq
      exact ⟨hnext, fun _ _ => ⟨s.ph, s.events, e, access, h.tracks.going hb hp, rfl⟩, fun hn => absurd hn hnot⟩
    | completed _ _ _ _ eq =>
      subst eq
      exact ⟨hnext, nofun, nofun⟩
    | aborted ph eq =>
      subst eq
      exact ⟨hnext, nofun, fun _ _ => ⟨s.events, h.inAbort hb ph, rfl⟩⟩

section
variable {d : DataWord} {s t u : State} {n : Nat} (h : EndsIn d s t n u) (hs : s.Inv)
include h hs

theorem EndsIn.start_follows : Follows ⟨d, s.mode, s.delayMs, s.env.wiring⟩ s.events t := by
  have hinv : t.Inv := h.start_inv hs
  obtain rfl := h.start_eq
  exact ⟨hinv, fun _ => rfl, .of_going rfl (Job.recorded_zero _ _)⟩

theorem EndsIn.followsAbort : FollowsAbort ⟨d, s.mode, s.delayMs, s.env.wiring⟩ s.events u := by
  refine h.run.keeps_whileBusy (fun _ _ hb hv hst => hv.of_step hb hst) h.before ⟨h.start_follows hs, ?_, ?_⟩ <;>
    rw [h.start_eq] <;> exact nofun

end

end Sys2Proof.Machine
end

section
/-! PROOFS, family 42_transfer_engine. RX as a number: the levels read, and the sum over the sample positions (R177,
R189). -/

namespace Sys2Proof.Machine

/-- The number shifted into RX by the levels read, the latest of them first: a level counts where the trigger is set at
its index, which is the number of levels before it. -/
def received (trig : Nat → Level) : List Level → Nat
  | [] => 0
  | v :: ls => if trig ls.length then 2 * received trig ls + v.toNat else received trig ls

/-- A sample doubles RX and adds the level, as long as no bit is lost (R177). -/
theorem sample_toNat {s : State} (h : s.rx.toNat < 2 ^ 31) (v : Level) :
    (s.sample v).rx.toNat = 2 * s.rx.toNat + v.toNat := by
  have hv : v.toNat < 2 ^ 1 := v.toNat_lt
  rw [State.sample_rx, BitVec.toNat_or, BitVec.toNat_shiftLeft, Nat.shiftLeft_eq, BitVec.toNat_setWidth,
    BitVec.toNat_ofBool, Nat.mod_eq_of_lt (by omega), Nat.mod_eq_of_lt (by omega), Nat.mul_comm,
    ← Nat.two_pow_add_eq_or_of_lt hv]

/-- The levels of the indices below `n`, the latest first. -/
def levelsBelow (m : Nat → Level) (n : Nat) : List Level := ((List.range n).map m).reverse

theorem received_levelsBelow_succ (trig m : Nat → Level) (n : Nat) :
    received trig (levelsBelow m (n + 1)) =
      if trig n then 2 * received trig (levelsBelow m n) + (m n).toNat else received trig (levelsBelow m n) := by
  simp [levelsBelow, List.range_succ, received]

theorem received_levelsBelow_add {trig m : Nat → Level} {a n : Nat} (h : ∀ i, a ≤ i → i < a + n → trig i = false) :
    received trig (levelsBelow m (a + n)) = received trig (levelsBelow m a) := by
  induction n with
  | zero => rfl
  | succ n ih =>
    rw [← Nat.add_assoc, received_levelsBelow_succ, h (a + n) (by omega) (by omega),
      ih fun i hi hlt => h i hi (by omega)]
    rfl

/-- With one sample to a pair the number received is the sum of the samples, the first with the highest weight. -/
theorem PaddedPairs.received_eq {f : Nat → Level} {a w : Nat}
    (h : PaddedPairs f a w false (fun _ => false) (fun _ => true)) (m : Nat → Level) {n b : Nat}
    (hn : n = a + 2 * w + b) : received f (levelsBelow m n) =
      ((List.range w).map fun k => (m (a + 2 * k + 1)).toNat * 2 ^ (w - 1 - k)).sum := by
  subst hn
  have hpairs : ∀ j, j ≤ w → received f (levelsBelow m (a + 2 * j)) =
      ((List.range j).map fun k => (m (a + 2 * k + 1)).toNat * 2 ^ (j - 1 - k)).sum := by
    intro j hj
    induction j with
    | zero =>
      have hbefore := received_levelsBelow_add (trig := f) (m := m) (a := 0) (n := a)
        fun i _ hi => h.before i (by omega)
      simpa [levelsBelow, received] using hbefore
    | succ j ih =>
      have hdouble : ∀ k ∈ List.range j, (m (a + 2 * k + 1)).toNat * 2 ^ (j + 1 - 1 - k) =
          2 * ((m (a + 2 * k + 1)).toNat * 2 ^ (j - 1 - k)) := by
        intro k hk
        have hk : k < j := List.mem_range.mp hk
        rw [show j + 1 - 1 - k = j - 1 - k + 1 by omega, pow_succ]
        ring
      rw [Nat.mul_succ, ← Nat.add_assoc, received_levelsBelow_succ, received_levelsBelow_succ, h.fst j hj, h.snd j hj,
        ih (by omega), List.range_succ, List.map_append, List.sum_append, List.map_congr_left hdouble,
        List.sum_map_mul_left]
      simp
  rw [received_levelsBelow_add fun i hi _ => h.after i hi, hpairs w le_rfl]

/-- What a transfer receives (R189). -/
theorem received_trigSeq (cpha : Level) (w : Nat) (m : Nat → Level) :
    received (trigSeq cpha w) (levelsBelow m (2 * w + 3)) =
      ((List.range w).map fun k => (m (2 + cpha.toNat + 2 * k)).toNat * 2 ^ (w - 1 - k)).sum := by
  rw [(trigSeq_pairs cpha w).received_eq m (length_eq_lead cpha w)]
  exact congrArg List.sum (List.map_congr_left fun k _ => by rw [samplePos_eq])

/-- A word below 2^W is the sum of its bits. -/
theorem sum_bits {d : DataWord} {w : Nat} (hd : d.toNat < 2 ^ w) :
    ((List.range w).map fun k => (d.getLsbD (w - 1 - k)).toNat * 2 ^ (w - 1 - k)).sum = d.toNat := by
  have hhigh : ∀ j, j ≤ w → ((List.range j).map fun k => (d.getLsbD (w - 1 - k)).toNat * 2 ^ (w - 1 - k)).sum =
      d.toNat / 2 ^ (w - j) * 2 ^ (w - j) := by
    intro j hj
    induction j with
    | zero => simp [Nat.div_eq_of_lt hd]
    | succ j ih =>
      have he : w - j = w - (j + 1) + 1 := by omega
      have hlow : w - 1 - j = w - (j + 1) := by omega
      rw [List.range_succ, List.map_append, List.sum_append, ih (by omega), he, pow_succ, ← Nat.div_div_eq_div_mul,
        List.map_singleton, List.sum_singleton, hlow, ← BitVec.testBit_toNat, Nat.toNat_testBit]
      generalize d.toNat / 2 ^ (w - (j + 1)) = q
      rw [Nat.mul_comm (2 ^ _) 2, ← Nat.mul_assoc, ← Nat.add_mul, Nat.div_add_mod']
  simpa using hhigh w le_rfl

end Sys2Proof.Machine
end

section
/-! PROOFS, family 42_transfer_engine. RX holds what the reads in the history have shifted in. -/

namespace Sys2Proof.Machine

theorem levelsRead_flatMap {f : Nat → List Event} {m : Nat → Level} (h : ∀ i, levelsRead (f i) = [m i]) (n : Nat) :
    levelsRead ((List.range n).flatMap f) = (List.range n).map m := by
  induction n with
  | zero => rfl
  | succ n ih => simp [List.range_succ, ih, h]

namespace Job

theorem levelsRead_eventsAt (j : Job) (i : Nat) (v : Level) : levelsRead (j.eventsAt i v) = [v] := by
  rw [eventsAt, indexEvents, levelsRead_append]
  split <;> rfl

/-- Before the read of index i the history has one level for each index below. -/
theorem Recorded.levelsRead {j : Job} {base es : List Event} {i k : Nat} (h : j.Recorded base i k es) (hk : k ≤ 3) :
    ∃ es' m, (∀ i', j.MayRead i' (m i')) ∧ es = base ++ es' ∧ Machine.levelsRead es' = (List.range i).map m := by
  obtain ⟨m, hm, rfl⟩ := h
  refine ⟨_, m, hm, List.append_assoc .., ?_⟩
  have htake : Machine.levelsRead ((j.eventsAt i (m i)).take k) = [] := by interval_cases k <;> rfl
  rw [levelsRead_append, levelsRead_flatMap (fun i' => j.levelsRead_eventsAt i' (m i')), htake, List.append_nil]

/-- RX is `x`, and `es` is `base` and then a history whose reads have shifted `x` in. -/
def Receives (j : Job) (base es : List Event) (x : DataWord) : Prop :=
  ∃ es', es = base ++ es' ∧
    x.toNat = received (trigSeq j.mode.cpha j.mode.w.toNat) (Machine.levelsRead es').reverse

end Job

/-- From `s` to `t` no level is read and RX stays, or the read at IDX returns `v`. -/
inductive ReadOutcome (s t : State) : Prop
  | none (es : List Event) (events : t.events = s.events ++ es) (levels : levelsRead es = []) (rx : t.rx = s.rx)
  | level (v : Level) (ph : s.ph = .rd) (events : t.events = s.events ++ [.read (some v)])
      (rx : t.rx = (s.takeLevel v).rx)

@[simp] theorem State.advance_events (s : State) : s.advance.events = s.events := by
  rcases s.advance_cases with ⟨_, h⟩ | ⟨_, h⟩ <;> rw [h]
  rfl

@[simp] theorem State.advance_rx (s : State) : s.advance.rx = s.rx := by
  rcases s.advance_cases with ⟨_, h⟩ | ⟨_, h⟩ <;> rw [h]
  rfl

@[simp] theorem State.waitOrAdvance_events (s : State) : s.waitOrAdvance.events = s.events := by
  rcases s.waitOrAdvance_cases with ⟨_, h⟩ | ⟨_, h⟩ <;> rw [h]
  · exact s.advance_events

@[simp] theorem State.waitOrAdvance_rx (s : State) : s.waitOrAdvance.rx = s.rx := by
  rcases s.waitOrAdvance_cases with ⟨_, h⟩ | ⟨_, h⟩ <;> rw [h]
  · exact s.advance_rx

theorem writeStep_readOutcome (s : State) (p : Pins) (l : OutLine) (v : Level) (ph : Phase) :
    ReadOutcome s (s.writeStep p l v ph) := by
  rcases s.writeStep_cases p l v ph with ⟨_, h⟩ | ⟨_, h⟩ <;> rw [h]
  · exact .none [.write l v true] (by simp [State.record]) rfl (State.setOut_rx s l v)
  · exact .none [.write l v false] rfl rfl rfl

theorem microStep_readOutcome (p : Pins) {s : State} (hp : s.ph ≠ .abort) : ReadOutcome s (microStep p s) := by
  cases hph : s.ph with simp only [microStep, hph]
  | idle => exact .none [] (List.append_nil _).symm rfl rfl
  | wrD => exact writeStep_readOutcome ..
  | wrK => exact writeStep_readOutcome ..
  | wrS => exact writeStep_readOutcome ..
  | rd =>
    cases hf : p.ioFault with
    | true => rw [microRd_fault hf]; exact .none [.read none] rfl rfl rfl
    | false =>
      rw [microRd_ok hf]
      exact .level (s.misoLevel p) hph (State.waitOrAdvance_events _) (State.waitOrAdvance_rx _)
  | wait =>
    cases hd : p.waitDone with
    | true => rw [microWait_done hd]; exact .none [.wait s.delayMs] (State.advance_events _) rfl (State.advance_rx _)
    | false => rw [microWait_pending hd]; exact .none [] (List.append_nil _).symm rfl rfl
  | abort => exact absurd hph hp

theorem samplesBelow_mono (m : Mode) {a b : Nat} (h : a ≤ b) : samplesBelow m a ≤ samplesBelow m b :=
  (List.range_sublist.mpr h).countP_le

/-- Before a sample RX has room for one more bit: a transfer takes W samples in all (R177). -/
theorem State.Running.rx_room {s : State} (r : s.Running) (hw : s.mode.w.toNat ≤ 32) (hp : s.ph ≠ .wait)
    (htr : trigSeq s.mode.cpha s.mode.w.toNat s.idx.toNat = true) : s.rx.toNat < 2 ^ 31 := by
  have hle : samplesBelow s.mode (s.idx.toNat + 1) ≤ s.mode.w.toNat :=
    (samplesBelow_mono s.mode r.idx).trans_eq (samplesBelow_length s.mode)
  rw [samplesBelow_succ, if_pos htr] at hle
  exact (r.rx_lt hp).trans_le (Nat.pow_le_pow_right (by decide) (by omega))

/-- The level read at IDX is the next one that counts, or is discarded (R176). -/
theorem State.Running.takeLevel_receives {s : State} (r : s.Running) (hw : s.mode.w.toNat ≤ 32) (hp : s.ph ≠ .wait)
    {base es : List Event} {m : Nat → Level} (hev : s.events = base ++ es)
    (hlv : levelsRead es = (List.range s.idx.toNat).map m) (h : s.job.Receives base s.events s.rx) (v : Level) :
    s.job.Receives base (s.events ++ [.read (some v)]) (s.takeLevel v).rx := by
  obtain ⟨es', hes', hx⟩ := h
  obtain rfl : es' = es := List.append_cancel_left (hes'.symm.trans hev)
  obtain ⟨_, _, _, htr⟩ := r.elem_eq hw
  refine ⟨es' ++ [.read (some v)], by rw [hev, List.append_assoc], ?_⟩
  have hlen : (levelsRead es').reverse.length = s.idx.toNat := by simp [hlv]
  rw [levelsRead_append, List.reverse_append, levelsRead, levelsRead, List.reverse_singleton, List.singleton_append,
    received, hlen, ← hx, State.job_mode, State.takeLevel, htr]
  by_cases ht : trigSeq s.mode.cpha s.mode.w.toNat s.idx.toNat = true
  · rw [if_pos ht, if_pos ht]
    exact sample_toNat (r.rx_room hw hp ht) v
  · rw [if_neg ht, if_neg ht]

/-- A state whose history follows the transfer `j`, and whose RX is what the reads in it have shifted in. -/
structure FollowsReads (j : Job) (base : List Event) (s : State) : Prop extends Follows j base s where
  receives : s.busy = true ∨ s.rxvalid = true → j.Receives base s.events s.rx

theorem FollowsReads.of_step {j : Job} {base : List Event} {s t : State} (hb : s.busy = true)
    (h : FollowsReads j base s) (hst : step s = .next t) : FollowsReads j base t := by
  refine ⟨h.toFollows.of_step hb hst, fun ht => ?_⟩
  obtain rfl : s.job = j := h.job hb
  have r : s.Running := h.inv.running hb
  have hw : s.mode.w.toNat ≤ 32 := (h.inv.width r.mvalid).2
  have hrx := h.receives (.inl hb)
  obtain rfl := eq_busyNext hb hst
  cases hr : s.env.rstAt 0 with
  | true =>
    rw [busyNext_reset hr] at ht
    exact absurd ht (by simp [State.hardReset, State.reset])
  | false =>
    rw [busyNext_micro hr] at ht ⊢
    by_cases hp : s.ph = .abort
    · rw [microStep_abort (s := s.tick) hp] at ht
      exact absurd ht (by simp [microAbort, r.rxvalid])
    · cases microStep_readOutcome s.env.now (s := s.tick) hp with
      | none es events levels rx =>
        obtain ⟨es', hes', hx⟩ := hrx
        refine ⟨es' ++ es, by rw [events, State.tick_events, hes', List.append_assoc], ?_⟩
        rw [rx, levelsRead_append, levels, List.append_nil]
        exact hx
      | level v ph events rx =>
        have hrd : s.ph = .rd := ph
        have hrec := h.tracks.going hb hp
        rw [hrd] at hrec
        obtain ⟨es, m, _, hev, hlv⟩ := hrec.levelsRead le_rfl
        rw [events, rx]
        exact r.tick.takeLevel_receives hw (by simp [hrd]) hev hlv hrx v

theorem EndsIn.followsReads {d : DataWord} {s t u : State} {n : Nat} (h : EndsIn d s t n u) (hs : s.Inv) :
    FollowsReads ⟨d, s.mode, s.delayMs, s.env.wiring⟩ s.events u := by
  refine h.run.keeps_whileBusy (fun _ _ hb hv hst => hv.of_step hb hst) h.before ⟨h.start_follows hs, fun _ => ?_⟩
  rw [h.start_eq]
  exact ⟨[], (List.append_nil _).symm, rfl⟩

/-- The result of a completed transfer from the levels its reads returned, which in loopback are DataOut's own (R76,
R189). -/
theorem EndsIn.result {d : DataWord} {s t u : State} {n : Nat} (h : EndsIn d s t n u) (hs : s.Inv)
    (hx : u.rxvalid = true) : ∃ (es : List Event) (m : Nat → Level),
      (s.env.wiring = .loopback → ∀ i, m i = doutSeq d s.mode.cpha s.mode.w.toNat i) ∧
      u.events = s.events ++ es ∧ levelsRead es = (List.range (2 * s.mode.w.toNat + 3)).map m ∧
      u.rx.toNat = ((List.range s.mode.w.toNat).map fun k =>
        (m (2 + s.mode.cpha.toNat + 2 * k)).toNat * 2 ^ (s.mode.w.toNat - 1 - k)).sum := by
  have hf := h.followsReads hs
  obtain ⟨es, m, hm, hev, hlv⟩ := (hf.tracks.completed h.ended hx).levelsRead (Nat.zero_le 3)
  obtain ⟨es', hev', hrx⟩ := hf.receives (.inr hx)
  obtain rfl : es' = es := List.append_cancel_left (hev'.symm.trans hev)
  refine ⟨es', m, fun hl i => hm i hl, hev, hlv, ?_⟩
  rw [hrx, hlv]
  exact received_trigSeq s.mode.cpha s.mode.w.toNat m

/-- In loopback the levels at the sample positions are the bits of the word sent (R190). -/
theorem EndsIn.loopback_rx {d : DataWord} {s t u : State} {n : Nat} (h : EndsIn d s t n u) (hs : s.Inv)
    (hl : s.env.wiring = .loopback) (hx : u.rxvalid = true) : u.rx = d := by
  have hd : d.toNat < 2 ^ s.mode.w.toNat := by
    have hrange := ((h.start_inv hs).running h.started).inRange
    rwa [h.start_eq] at hrange
  obtain ⟨_, m, hm, _, _, hrx⟩ := h.result hs hx
  have hbit : ∀ k ∈ List.range s.mode.w.toNat,
      (m (2 + s.mode.cpha.toNat + 2 * k)).toNat * 2 ^ (s.mode.w.toNat - 1 - k) =
        (d.getLsbD (s.mode.w.toNat - 1 - k)).toNat * 2 ^ (s.mode.w.toNat - 1 - k) := by
    intro k hk
    rw [hm hl, samplePos_eq, (doutSeq_pairs d s.mode.cpha s.mode.w.toNat).snd k (List.mem_range.mp hk), wireBit]
  rw [List.map_congr_left hbit, sum_bits hd] at hrx
  exact BitVec.eq_of_toNat_eq hrx

/-- A transfer that no reset cuts and no failed access aborts is completed, with one response (R180). -/
theorem EndsIn.completes {d : DataWord} {s t u : State} {n : Nat} (h : EndsIn d s t n u) (hs : s.Inv)
    (hr : s.Unreset n) (he : u.lasterr ≠ .portError) : u.rxvalid = true ∧
      u.rsp = some (rspWord .ok u.rx) ∧ u.responses = s.responses ++ [rspWord .ok u.rx] := by
  obtain ⟨k, v, rfl, hv, hst⟩ := h.last_step hs
  have hnot : ¬u.busy = true := by simp [h.ended]
  rcases hv.inv.busy_step hv.busy hst with ⟨hrst, _⟩ | ⟨_, hout⟩
  · have := hr k k.lt_succ_self
    simp [hv.rst, this] at hrst
  · cases hout with
    | goesOn busy _ _ => exact absurd (busy.trans hv.busy) hnot
    | failed _ _ _ eq => rw [eq] at hnot; exact absurd hv.busy hnot
    | aborted _ eq => rw [eq] at he; exact absurd rfl he
    | completed e x _ _ eq =>
      rw [eq, ← hv.responses]
      exact ⟨rfl, rfl, rfl⟩

end Sys2Proof.Machine
end

section
/-! PROOFS, family 42_transfer_engine. With prompt waits every micro-step brings the end of the transfer
nearer (R192). -/

namespace Sys2Proof.Machine

/-- A bound on the steps a transfer still takes when every wait is answered at once: the micro-steps ahead, and one for
an abort. -/
def State.stepsLeft (s : State) : Nat := if s.ph = .abort then 1 else s.duration - s.position + 1

theorem State.Inv.underWay {s : State} (h : s.Inv) (hb : s.busy = true) (hp : s.ph ≠ .abort) : s.UnderWay := by
  have r : s.Running := h.running hb
  have hbounds := stepsPerIndex_bounds s.delayMs
  refine ⟨hb, (h.width r.mvalid).2, r.seq, r.idx, h.busy.mp hb, hp, ?_⟩
  cases hph : s.ph with
  | wait => simp [stepsPerIndex, r.delay hph]
  | _ => simp only [Phase.eventsDone]; omega

/-- With its wait answered a micro-step moves the transfer on, unless its access fails. -/
theorem State.UnderWay.microStep_prompt {s : State} (h : s.UnderWay) {p : Pins} (hw : p.waitDone = true) :
    MovesOn s (microStep p s) ∨ (microStep p s).ph = .abort := by
  by_cases hf : s.ph ≠ .wait ∧ p.ioFault = true
  · obtain ⟨hnw, hf⟩ := hf
    obtain ⟨e, _, he⟩ := microStep_fault (Phase.access_of_ne h.notIdle hnw h.notAbort) hf
    exact .inr (by rw [he])
  · refine .inl (h.microStep_movesOn (fun hlt => ?_) fun _ => hw)
    have hnw : s.ph ≠ .wait := fun hp => by simp [hp] at hlt
    simpa [hnw] using hf

theorem State.UnderWay.stepsLeft_eq {s : State} (h : s.UnderWay) : s.stepsLeft = s.duration - s.position + 1 :=
  if_neg h.notAbort

theorem State.UnderWay.stepsLeft_le {s : State} (h : s.UnderWay) : s.stepsLeft ≤ 336 := by
  have hdur : s.duration ≤ 5 * 67 := Nat.mul_le_mul (stepsPerIndex_bounds s.delayMs).2 (seqLength_le h.width)
  rw [h.stepsLeft_eq]
  omega

theorem State.Inv.stepsLeft_le {s : State} (h : s.Inv) (hb : s.busy = true) : s.stepsLeft ≤ 336 := by
  by_cases hp : s.ph = .abort
  · simp [State.stepsLeft, hp]
  · exact (h.underWay hb hp).stepsLeft_le

theorem State.Inv.stepsLeft_busyNext_lt {s : State} (h : s.Inv) (hb : s.busy = true) (hr : s.env.rstAt 0 = false)
    (hw : s.env.now.waitDone = true) (hnext : (busyNext s).busy = true) : (busyNext s).stepsLeft < s.stepsLeft := by
  rw [busyNext_micro hr] at hnext ⊢
  by_cases hp : s.ph = .abort
  · rw [microStep_abort (s := s.tick) hp] at hnext
    exact absurd hnext Bool.false_ne_true
  · have hu : s.UnderWay := h.underWay hb hp
    have hlt := hu.position_lt
    rw [hu.stepsLeft_eq]
    rcases hu.tick.microStep_prompt hw with (⟨ht, hpos⟩ | ⟨hc, _⟩) | ha
    · have hk := microStep_keepsSettings s.env.now s.tick
      have hdur : (microStep s.env.now s.tick).duration = s.duration := by
        rw [State.duration, State.duration, hk.delayMs, hk.mode]; rfl
      have hpos' : (microStep s.env.now s.tick).position = s.position + 1 := hpos
      rw [ht.stepsLeft_eq, hdur, hpos']
      omega
    · exact absurd (hnext.symm.trans hc.ready) (by decide)
    · rw [State.stepsLeft, if_pos ha]
      omega

/-- The assumptions on the inputs of the coming steps, one step later. -/
theorem State.Unreset.next {s : State} {n : Nat} (h : s.Unreset (n + 1)) : (busyNext s).Unreset n := by
  intro k hk
  rw [busyNext_env, Env.tick_rstAt]
  exact h (k + 1) (Nat.succ_lt_succ hk)

theorem State.Prompt.next {s : State} {n : Nat} (h : s.Prompt (n + 1)) : (busyNext s).Prompt n := by
  intro k hk
  rw [busyNext_env, Env.tick_pinsAt]
  exact h (k + 1) (Nat.succ_lt_succ hk)

/-- By induction on the bound: a step answers, or the bound goes down. -/
theorem State.Inv.transfer_ends {n : Nat} {s : State} (h : s.Inv) (hb : s.busy = true) (hn : s.stepsLeft ≤ n)
    (hr : s.Unreset n) (hw : s.Prompt n) : ∃ (k : Nat) (u : State) (r : RspWord), k ≤ n ∧ Runs k s u ∧
      u.busy = false ∧ u.rsp = some r ∧ u.responses = s.responses ++ [r] := by
  induction n generalizing s with
  | zero =>
    have hpos : 0 < s.stepsLeft := by unfold State.stepsLeft; split <;> omega
    omega
  | succ n ih =>
    have hr0 : s.env.rstAt 0 = false := hr 0 n.succ_pos
    have hst : step s = .next (busyNext s) := step_busy hb
    have hout : GoesOnOrAnswers s (busyNext s) := by
      rw [busyNext_micro hr0]
      exact microStep_goesOnOrAnswers (s := s.tick) rfl hb _
    rcases hout with ⟨_, hresp, hb'⟩ | ⟨r, hrsp, hresp, hb'⟩
    · have hlt := h.stepsLeft_busyNext_lt hb hr0 (hw 0 n.succ_pos) hb'
      obtain ⟨k, u, r, hk, hrun, hready, hrsp, hresp'⟩ := ih (h.step_inv hst) hb' (by omega) hr.next hw.next
      exact ⟨k + 1, u, r, by omega, runs_succ_iff.mpr ⟨_, hst, hrun⟩, hready, hrsp, hresp ▸ hresp'⟩
    · exact ⟨1, _, r, by omega, runs_succ_iff.mpr ⟨_, hst, runs_zero_iff.mpr rfl⟩, hb', hrsp, hresp⟩

end Sys2Proof.Machine
end

section
/-! PROOFS, family 42_transfer_engine. The loop of R185 and the engine side by side: the engine at a place of the
transfer holds what the loop has so far. -/

namespace Sys2Proof.Machine

/-- The engine at index `i` and phase `ph` with what the loop has in `s`; `r` is the response pulse of the step before
and `e` holds the inputs still to come, neither of which the loop has. -/
def State.engineAt (s : State) (i : Nat) (ph : Phase) (r : Option RspWord) (e : Env) : State :=
  { s with busy := true, idx := BitVec.ofNat 7 i, ph := ph, rsp := r, env := e }

/-- The engine as index `i` begins, or after the last index, where the transfer is complete. -/
def State.engineFrom (s : State) (i : Nat) (r : Option RspWord) (e : Env) : State :=
  if i < seqLength s.mode.w.toNat then s.engineAt i .wrD r e else (s.engineAt (i - 1) .rd r e).complete

/-- The loop that began in `s₀` is in `s`: the settings of `s₀`, the latched sequences, no result yet. -/
structure InLoop (s₀ s : State) : Prop where
  width : s₀.mode.w.toNat ≤ 32
  mode : s.mode = s₀.mode
  delayMs : s.delayMs = s₀.delayMs
  wiring : s.env.wiring = s₀.env.wiring
  seq : s.seq = synthesize s.tx s₀.mode
  rxvalid : s.rxvalid = false

/-- `e` holds the inputs of `s₀` from step `k` on. -/
structure InputsFrom (s₀ : State) (k : Nat) (e : Env) : Prop where
  wiring : e.wiring = s₀.env.wiring
  pins : ∀ j, e.pinsAt j = s₀.env.pinsAt (k + j)

theorem InputsFrom.now {s₀ : State} {k : Nat} {e : Env} (h : InputsFrom s₀ k e) : e.now = s₀.env.pinsAt k := h.pins 0

theorem InputsFrom.tick {s₀ : State} {k : Nat} {e : Env} (h : InputsFrom s₀ k e) : InputsFrom s₀ (k + 1) e.tick where
  wiring := h.wiring
  pins j := by rw [Env.tick_pinsAt, h.pins, Nat.add_assoc, Nat.add_comm 1]

section
variable {s₀ s : State} (h : InLoop s₀ s)
include h

theorem InLoop.record (e : Event) : InLoop s₀ (s.record e) := { h with }

theorem InLoop.written (l : OutLine) (v : Level) (e : Event) : InLoop s₀ ((s.setOut l v).record e) := by
  cases l <;> exact { h with }

theorem InLoop.sampleIf (b : Bool) (v : Level) : InLoop s₀ (if b then s.sample v else s) := by
  cases b
  · exact h
  · exact { h with }

/-- Below L the register elements are the sequence functions that the loop uses. -/
theorem InLoop.elem_eq {i : Nat} (hi : i < seqLength s₀.mode.w.toNat) (ph : Phase) (r : Option RspWord) (e : Env) :
    (s.engineAt i ph r e).elem s.seq.dout = doutSeq s.tx s₀.mode.cpha s₀.mode.w.toNat i ∧
    (s.engineAt i ph r e).elem s.seq.ck = clkSeq s₀.mode.cpol s₀.mode.w.toNat i ∧
    (s.engineAt i ph r e).elem s.seq.cs = csSeq s₀.mode.w.toNat i ∧
    (s.engineAt i ph r e).elem s.seq.tr = trigSeq s₀.mode.cpha s₀.mode.w.toNat i := by
  have hidx : (BitVec.ofNat 7 i).toNat = i := by
    have := seqLength_le h.width
    rw [BitVec.toNat_ofNat]
    omega
  obtain ⟨hcs, hck, hdo, htr⟩ := synthesize_bits s.tx s₀.mode h.width i
  simp only [State.elem, State.engineAt, hidx, h.seq, hcs, hck, hdo, htr, hi, decide_true, Bool.true_and, and_self]

/-- The write micro-steps write what the loop writes (R173 to R175). -/
theorem InLoop.microStep_writes {i : Nat} (hi : i < seqLength s₀.mode.w.toNat) (p : Pins) (e : Env) :
    microStep p (s.engineAt i .wrD none e) =
      (s.engineAt i .wrD none e).writeStep p .mosi (doutSeq s.tx s₀.mode.cpha s₀.mode.w.toNat i) .wrK ∧
    microStep p (s.engineAt i .wrK none e) =
      (s.engineAt i .wrK none e).writeStep p .sclk (clkSeq s₀.mode.cpol s₀.mode.w.toNat i) .wrS ∧
    microStep p (s.engineAt i .wrS none e) =
      (s.engineAt i .wrS none e).writeStep p .csn (csSeq s₀.mode.w.toNat i) .rd := by
  obtain ⟨hdo, hck, hcs, _⟩ := h.elem_eq hi .wrD none e
  rw [← hdo, ← hck, ← hcs]
  exact ⟨rfl, rfl, rfl⟩

/-- `advance()` goes where the loop goes after index `i` (R179, R180). -/
theorem InLoop.advance_engineAt {i : Nat} (hi : i < seqLength s₀.mode.w.toNat) (ph : Phase) (e : Env) :
    (s.engineAt i ph none e).advance = s.engineFrom (i + 1) none e := by
  have hlen : seqLength s₀.mode.w.toNat ≤ 67 := seqLength_le h.width
  have hlast : (s.seq.len - 1#7).toNat + 1 = seqLength s₀.mode.w.toNat := by
    rw [len_sub_one (s := s) (h.mode ▸ h.width) (h.mode ▸ h.seq), h.mode]
    rfl
  have hidx : (s.engineAt i ph none e).idx = s.seq.len - 1#7 ↔ i + 1 = seqLength s₀.mode.w.toNat := by
    rw [← BitVec.toNat_inj, State.engineAt, BitVec.toNat_ofNat]
    omega
  rw [State.engineFrom, h.mode]
  by_cases hn : i + 1 < seqLength s₀.mode.w.toNat
  · rw [State.advance_next (s := s.engineAt i ph none e) fun heq => hn.ne (hidx.mp heq), if_pos hn]
    simp [State.engineAt, BitVec.ofNat_add]
  · rw [State.advance_last (s := s.engineAt i ph none e) (hidx.mpr (by omega)), if_neg hn]
    rfl

/-- A read that succeeds shifts the level in where the loop does (R176, R177). -/
theorem InLoop.readLevel_engineAt {i : Nat} (hi : i < seqLength s₀.mode.w.toNat) (e : Env) (v : Level) :
    (s.engineAt i .rd none e).readLevel v = State.engineAt
      (if trigSeq s₀.mode.cpha s₀.mode.w.toNat i then (s.record (.read (some v))).sample v
        else s.record (.read (some v))) i .rd none e := by
  obtain ⟨_, _, _, htr⟩ := h.elem_eq hi .rd none e
  rw [State.readLevel, State.takeLevel, show (s.engineAt i .rd none e).seq = s.seq from rfl, htr]
  split <;> rfl

theorem InLoop.misoLevel_engineAt {e : Env} (he : e.wiring = s₀.env.wiring) (i : Nat) (ph : Phase) (p : Pins) :
    (s.engineAt i ph none e).misoLevel p = s.misoLevel p := by
  rw [State.misoLevel, State.misoLevel, h.wiring, show (s.engineAt i ph none e).env.wiring = s₀.env.wiring from he]
  rfl

end

/-- A write micro-step does to the engine what PinWrite does to the loop. -/
theorem writeStep_engineAt (s : State) (i : Nat) (ph : Phase) (e : Env) (p : Pins) (l : OutLine) (v : Level)
    (ph' : Phase) : (s.engineAt i ph none e).writeStep p l v ph' =
      (s.pinWrite p l v).1.engineAt i (if (s.pinWrite p l v).2 then ph' else .abort) none e := by
  rcases s.pinWrite_cases p l v with ⟨hf, h⟩ | ⟨hf, h⟩
  · rw [h, writeStep_eq_ite, if_neg (by simp [hf])]
    cases l <;> rfl
  · rw [h, writeStep_eq_ite, if_pos hf]
    rfl

end Sys2Proof.Machine
end

section
/-! PROOFS, family 42_transfer_engine. The engine follows the loop to its end (R185). -/

namespace Sys2Proof.Machine

/-- Within `n` steps without reset and with prompt waits `v` leads to a state with `P`. -/
def Reaches (n : Nat) (v : State) (P : State → Prop) : Prop :=
  v.Unreset n → v.Prompt n → ∃ k u, k ≤ n ∧ Runs k v u ∧ P u

theorem Reaches.now {P : State → Prop} {v : State} (h : P v) (n : Nat) : Reaches n v P :=
  fun _ _ => ⟨0, v, Nat.zero_le n, runs_zero_iff.mpr rfl, h⟩

theorem Reaches.mono {P : State → Prop} {v : State} {n m : Nat} (h : Reaches n v P) (hnm : n ≤ m) : Reaches m v P := by
  intro hr hw
  obtain ⟨k, u, hk, hrun, hu⟩ := h (fun k hk => hr k (by omega)) fun k hk => hw k (by omega)
  exact ⟨k, u, by omega, hrun, hu⟩

/-- One micro-step first. -/
theorem Reaches.micro {P : State → Prop} {s : State} {i : Nat} {ph : Phase} {r : Option RspWord} {e : Env} {n : Nat}
    (hp : ph ≠ .idle) (h : e.now.waitDone = true → Reaches n (microStep e.now (s.engineAt i ph none e.tick)) P) :
    Reaches (n + 1) (s.engineAt i ph r e) P := by
  intro hr hw
  have hr0 : (s.engineAt i ph r e).env.rstAt 0 = false := hr 0 n.succ_pos
  have hst := step_micro hr0 hp
  have hnext : busyNext (s.engineAt i ph r e) = microStep e.now (s.engineAt i ph none e.tick) := busyNext_micro hr0
  obtain ⟨k, u, hk, hrun, hu⟩ := h (hw 0 n.succ_pos) (hnext ▸ hr.next) (hnext ▸ hw.next)
  exact ⟨k + 1, u, Nat.succ_le_succ hk, runs_succ_iff.mpr ⟨_, hst, hrun⟩, hu⟩

/-- A write micro-step first. -/
theorem Reaches.write {P : State → Prop} {s : State} {i : Nat} {ph : Phase} {r : Option RspWord} {e : Env} {n : Nat}
    {p : Pins} (hp : ph ≠ .idle) (hnow : e.now = p) {l : OutLine} {v : Level} {ph' : Phase}
    (hm : microStep p (s.engineAt i ph none e.tick) = (s.engineAt i ph none e.tick).writeStep p l v ph')
    (h : Reaches n ((s.pinWrite p l v).1.engineAt i (if (s.pinWrite p l v).2 then ph' else .abort) none e.tick) P) :
    Reaches (n + 1) (s.engineAt i ph r e) P := by
  refine .micro hp fun _ => ?_
  rw [hnow, hm, writeStep_engineAt]
  exact h

/-- The end of the loop, which `transferLoop` adds to its passes. -/
def loopEnd : State × Bool → State
  | (s, true) => State.finish { s with rxvalid := true } .ok s.rx
  | (s, false) => ((s.setOut .csn true).record (.force true)).finish .portError 0#32

theorem transferLoop_eq (pin : Nat → Pins) (d : DataWord) (s : State) : transferLoop pin d s =
    loopEnd (loopFrom pin (seqLength s.mode.w.toNat) 0 { s.loadWord d with rx := 0#32, rxvalid := false }) :=
  rfl

/-- `u` is a ready block with the lines, history, status, response and result of the loop that ended in `l`. -/
structure AgreesWith (l u : State) : Prop where
  busy : u.busy = false
  ph : u.ph = .idle
  outMosi : u.outMosi = l.outMosi
  outSclk : u.outSclk = l.outSclk
  outCsn : u.outCsn = l.outCsn
  events : u.events = l.events
  lasterr : u.lasterr = l.lasterr
  rxvalid : u.rxvalid = l.rxvalid
  rsp : u.rsp = l.rsp
  responses : u.responses = l.responses
  rx : u.rxvalid = true → u.rx = l.rx

/-- The abort ends the engine's transfer as it ends the loop (R182). -/
theorem InLoop.abort_reaches {s₀ s : State} (h : InLoop s₀ s) (i : Nat) (e : Env) :
    Reaches 1 (s.engineAt i .abort none e) (AgreesWith (loopEnd (s, false))) := by
  refine .micro nofun fun _ => .now ?_ 0
  exact ⟨rfl, rfl, rfl, rfl, rfl, rfl, rfl, rfl, rfl, rfl, fun hx => absurd (h.rxvalid.symm.trans hx) (by decide)⟩

/-- The write `r` of a pass and, when it does not fail, the rest `f` of the pass. -/
def afterWrite (r : State × Bool) (f : State → State × Bool) : State × Bool :=
  match r with
  | (s, false) => (s, false)
  | (s, true) => f s

/-- The pass of index `i` from its read on; `w` is the width. -/
def loopRead (w i : Nat) (p : Pins) (s : State) : State × Bool :=
  match s.pinRead p with
  | (s, none) => (s, false)
  | (s, some v) =>
    let s := if trigSeq s.mode.cpha w i then s.sample v else s
    (if s.delayMs ≠ 0#16 then s.record (.wait s.delayMs) else s, true)

theorem loopPass_eq (i : Nat) (pin : Nat → Pins) (s : State) : loopPass i pin s =
    afterWrite (s.pinWrite (pin 0) .mosi (doutSeq s.tx s.mode.cpha s.mode.w.toNat i)) fun s₁ =>
    afterWrite (s₁.pinWrite (pin 1) .sclk (clkSeq s₁.mode.cpol s.mode.w.toNat i)) fun s₂ =>
    afterWrite (s₂.pinWrite (pin 2) .csn (csSeq s.mode.w.toNat i)) (loopRead s.mode.w.toNat i (pin 3)) :=
  rfl

/-- Where the pass of index `i` leaves the loop with `out`, the engine gets from `v` within `m` steps, the first of them
step `k` of the inputs: to the next index, or to ABORT. -/
def GoesTo (s₀ : State) (i k m : Nat) (v : State) (out : State × Bool) : Prop :=
  ∀ n P, (out.2 = true → InLoop s₀ out.1 → ∀ e, InputsFrom s₀ (k + m) e →
      Reaches n (out.1.engineFrom (i + 1) none e) P) →
    (out.2 = false → InLoop s₀ out.1 → ∀ e, Reaches n (out.1.engineAt i .abort none e) P) → Reaches (n + m) v P

section
variable {s₀ s : State} (h : InLoop s₀ s) {i k : Nat} {e : Env}
include h

/-- After the read: the wait when a delay is configured, and on to the next index (R176, R178). -/
theorem InLoop.wait_goesTo (hi : i < seqLength s₀.mode.w.toNat) (he : InputsFrom s₀ k e) :
    GoesTo s₀ i k (stepsPerIndex s₀.delayMs - 4) (s.engineAt i .rd none e).waitOrAdvance
      (if s.delayMs ≠ 0#16 then s.record (.wait s.delayMs) else s, true) := by
  intro n P hnext _
  by_cases hd : s.delayMs = 0#16
  · have hsteps : stepsPerIndex s₀.delayMs = 4 := by rw [← h.delayMs, stepsPerIndex, if_pos hd]
    rw [if_neg (not_not.mpr hd), hsteps] at hnext
    rw [State.waitOrAdvance_advance (s := s.engineAt i .rd none e) hd, h.advance_engineAt hi, hsteps]
    exact hnext rfl h e he
  · have hsteps : stepsPerIndex s₀.delayMs = 5 := by rw [← h.delayMs, stepsPerIndex, if_neg hd]
    rw [if_pos hd, hsteps] at hnext
    rw [State.waitOrAdvance_wait (s := s.engineAt i .rd none e) hd, hsteps]
    refine Reaches.micro (s := s) (ph := .wait) (e := e) nofun fun hdone => ?_
    have hwait : microStep e.now (s.engineAt i .wait none e.tick) =
        ((s.record (.wait s.delayMs)).engineAt i .wait none e.tick).advance := microWait_done hdone _
    rw [hwait, (h.record _).advance_engineAt hi]
    exact hnext rfl (h.record _) _ he.tick

/-- The read, and the rest of the pass. -/
theorem InLoop.read_goesTo (hi : i < seqLength s₀.mode.w.toNat) (he : InputsFrom s₀ k e) :
    GoesTo s₀ i k (stepsPerIndex s₀.delayMs - 4 + 1) (s.engineAt i .rd none e)
      (loopRead s₀.mode.w.toNat i (s₀.env.pinsAt k) s) := by
  intro n P hok hfail
  refine Reaches.micro nofun fun _ => ?_
  rw [he.now]
  rcases s.pinRead_cases (s₀.env.pinsAt k) with ⟨hf, hc⟩ | ⟨hf, hc⟩
  · have hread : microStep (s₀.env.pinsAt k) (s.engineAt i .rd none e.tick) = _ := microRd_ok hf _
    rw [hread, h.misoLevel_engineAt he.tick.wiring, h.readLevel_engineAt hi]
    rw [loopRead, hc] at hok
    generalize s.misoLevel (s₀.env.pinsAt k) = v at hok ⊢
    have hs := (h.record (.read (some v))).sampleIf (trigSeq s₀.mode.cpha s₀.mode.w.toNat i) v
    simp only [State.record_mode, h.mode] at hok
    rw [Nat.add_comm _ 1, ← Nat.add_assoc] at hok
    exact hs.wait_goesTo hi he.tick n P (fun _ => hok trivial) nofun
  · have hread : microStep (s₀.env.pinsAt k) (s.engineAt i .rd none e.tick) =
        (s.record (.read none)).engineAt i .abort none e.tick := microRd_fault hf _
    rw [loopRead, hc] at hfail
    rw [hread]
    exact (hfail rfl (h.record _) _).mono (Nat.le_add_right n _)

/-- A write, and the rest of the pass. -/
theorem InLoop.write_goesTo (he : InputsFrom s₀ k e) {m : Nat} {ph : Phase} {r : Option RspWord} (hp : ph ≠ .idle)
    {l : OutLine} {v : Level} {ph' : Phase} (hm : microStep (s₀.env.pinsAt k) (s.engineAt i ph none e.tick) =
      (s.engineAt i ph none e.tick).writeStep (s₀.env.pinsAt k) l v ph') {f : State → State × Bool}
    (hnext : ∀ s₁, InLoop s₀ s₁ → GoesTo s₀ i (k + 1) m (s₁.engineAt i ph' none e.tick) (f s₁)) :
    GoesTo s₀ i k (m + 1) (s.engineAt i ph r e) (afterWrite (s.pinWrite (s₀.env.pinsAt k) l v) f) := by
  intro n P hok hfail
  refine .write hp he.now hm ?_
  rcases s.pinWrite_cases (s₀.env.pinsAt k) l v with ⟨_, hc⟩ | ⟨_, hc⟩ <;> rw [hc] at hok hfail ⊢
  · rw [Nat.add_comm m 1, ← Nat.add_assoc] at hok
    exact hnext _ (h.written ..) n P hok hfail
  · exact (hfail rfl (h.record _) _).mono (Nat.le_add_right n m)

/-- The whole pass: 4 or 5 steps (R172). -/
theorem InLoop.pass_goesTo (hi : i < seqLength s₀.mode.w.toNat) (he : InputsFrom s₀ k e) (r : Option RspWord) :
    GoesTo s₀ i k (stepsPerIndex s₀.delayMs) (s.engineAt i .wrD r e)
      (loopPass i (fun j => s₀.env.pinsAt (k + j)) s) := by
  have hsteps : stepsPerIndex s₀.delayMs = stepsPerIndex s₀.delayMs - 4 + 1 + 1 + 1 + 1 := by
    have := (stepsPerIndex_bounds s₀.delayMs).1
    omega
  rw [hsteps, loopPass_eq, h.mode]
  obtain ⟨hwrD, _, _⟩ := h.microStep_writes hi (s₀.env.pinsAt k) e.tick
  refine h.write_goesTo he (by decide) hwrD fun s₁ h₁ => ?_
  obtain ⟨_, hwrK, _⟩ := h₁.microStep_writes hi (s₀.env.pinsAt (k + 1)) e.tick.tick
  rw [h₁.mode]
  refine h₁.write_goesTo he.tick (by decide) hwrK fun s₂ h₂ => ?_
  obtain ⟨_, _, hwrS⟩ := h₂.microStep_writes hi (s₀.env.pinsAt (k + 1 + 1)) e.tick.tick.tick
  refine h₂.write_goesTo he.tick.tick (by decide) hwrS fun s₃ h₃ => ?_
  exact h₃.read_goesTo hi he.tick.tick.tick

end

/-- By induction on the indices to come: the engine at index i and the loop at index i reach the same end. -/
theorem InLoop.loopFrom_reaches {s₀ s : State} (h : InLoop s₀ s) {n i : Nat} {r : Option RspWord} {e : Env}
    (hn : i + n = seqLength s₀.mode.w.toNat) (he : InputsFrom s₀ (stepsPerIndex s₀.delayMs * i) e) :
    Reaches (stepsPerIndex s₀.delayMs * n + 1) (s.engineFrom i r e)
      (AgreesWith (loopEnd (loopFrom s₀.env.pinsAt n i s))) := by
  induction n generalizing s i r e with
  | zero =>
    have hi : ¬i < seqLength s.mode.w.toNat := by rw [h.mode]; omega
    rw [State.engineFrom, if_neg hi]
    exact .now ⟨rfl, rfl, rfl, rfl, rfl, rfl, rfl, rfl, rfl, rfl, fun _ => rfl⟩ _
  | succ n ih =>
    have hi : i < seqLength s₀.mode.w.toNat := by omega
    have hpass := h.pass_goesTo hi he r
    rw [State.engineFrom, h.mode, if_pos hi, Nat.mul_succ, Nat.add_right_comm, loopFrom, h.delayMs]
    generalize loopPass i (fun j => s₀.env.pinsAt (stepsPerIndex s₀.delayMs * i + j)) s = out at hpass ⊢
    obtain ⟨s', _ | _⟩ := out
    · exact hpass _ _ nofun fun _ h' e' => (h'.abort_reaches i e').mono (Nat.le_add_left ..)
    · exact hpass _ _ (fun _ h' e' he' => ih h' (by omega) (Nat.mul_succ _ _ ▸ he')) nofun

end Sys2Proof.Machine
end

section
/-! PROOFS, family 42_transfer_engine. The obligations. -/

open Sys2Proof Sys2Proof.Machine

/-- Settles O17: past the checks the accepting step loads what SYNTH loads. -/
theorem xferStartsATransfer : Obligations.XferStartsATransfer := by
  intro d s hb hm _ hw hd
  refine ⟨synthesize d s.mode, exec_xfer_ok hb hm hd, fun t ht => ?_, synthesize_len d s.mode hw,
    fun i _ => synthesize_bits_ite d s.mode hw i⟩
  obtain rfl := Host.Outcome.next.inj ((exec_synth_ok hb hm hd).symm.trans ht)
  rfl

/-- Settles O23: XFER is not accepted, answers an error, or starts a transfer, and then no check fails. -/
theorem xferFrame : Obligations.XferFrame := by
  intro d s t h
  rcases exec_next h with ⟨_, rfl⟩ | ⟨_, rfl⟩
  · exact ⟨rfl, rfl, rfl, rfl, rfl, rfl, rfl, rfl, fun _ => ⟨rfl, rfl, rfl, rfl, rfl, rfl, rfl, rfl⟩⟩
  · rcases xferStep_cases s d with ⟨_, e⟩ | ⟨hm, hd, e⟩ <;> rw [acceptStep, e]
    · exact ⟨rfl, rfl, rfl, rfl, rfl, rfl, rfl, rfl, fun _ => ⟨rfl, rfl, rfl, rfl, rfl, rfl, rfl, rfl⟩⟩
    · refine ⟨rfl, rfl, rfl, rfl, rfl, rfl, rfl, rfl, ?_⟩
      rintro (hno | hout)
      · exact absurd (hm.symm.trans hno) (by decide)
      · omega

/-- Settles O25: each of the three is PinWrite of its own line, by the two cases of `io_fault_i`. -/
theorem writeMicroSteps : Obligations.WriteMicroSteps := by
  intro s hr
  refine ⟨fun hp => ?_, fun hp => ?_, fun hp => ?_⟩ <;>
    simp only [step_micro hr (by simp [hp]), microStep, State.tick_ph, hp]
  · exact congrArg _ (writeStep_eq_ite s.tick s.env.now .mosi _ .wrK)
  · exact congrArg _ (writeStep_eq_ite s.tick s.env.now .sclk _ .wrS)
  · exact congrArg _ (writeStep_eq_ite s.tick s.env.now .csn _ .rd)

/-- Settles O26: the read fails, or RX takes its level and the engine waits, advances or completes. -/
theorem readMicroStep : Obligations.ReadMicroStep := by
  intro s hr hp
  simp only [step_micro hr (by simp [hp]), microStep, State.tick_ph, hp]
  refine ⟨fun hf => congrArg _ (microRd_fault hf s.tick), fun hf => ?_⟩
  refine ⟨s.misoLevel s.env.now, (s.tick.takeLevel (s.misoLevel s.env.now)).rx, fun hs => ?_, fun hl => ?_,
    fun htr => ?_, fun htr => ?_, fun hd => ?_, fun hd hn => ?_, fun hd hlast => ?_⟩
  · simp [State.misoLevel, hs]
  · simp [State.misoLevel, hl]
  · simp [State.takeLevel, State.elem, htr]
  · have hsample : s.tick.takeLevel (s.misoLevel s.env.now) = s.tick.sample (s.misoLevel s.env.now) := if_pos htr
    exact hsample ▸ sample_bits s.tick _
  all_goals rw [microRd_ok hf]
  · rw [State.waitOrAdvance_wait (s := s.tick.readLevel _) hd]
    rfl
  · rw [State.waitOrAdvance_advance (s := s.tick.readLevel _) hd, State.advance_next (s := s.tick.readLevel _) hn]
    rfl
  · rw [State.waitOrAdvance_advance (s := s.tick.readLevel _) hd, State.advance_last (s := s.tick.readLevel _) hlast]
    rfl

/-- Settles O27: the wait goes on, or its event is recorded and the engine advances. -/
theorem waitMicroStep : Obligations.WaitMicroStep := by
  intro s hr hp
  simp only [step_micro hr (by simp [hp]), microStep, State.tick_ph, hp]
  refine ⟨fun hd => congrArg _ (microWait_pending hd s.tick), fun hd hn => ?_, fun hd hlast => ?_⟩
  · rw [microWait_done hd, State.advance_next (s := s.tick.record _) hn]
    rfl
  · rw [microWait_done hd, State.advance_last (s := s.tick.record _) hlast]
    rfl

/-- Settles O28: the abort looks at no input, and RX takes the free value. -/
theorem abortMicroStep : Obligations.AbortMicroStep := by
  intro s hr hp
  simp only [step_micro hr (by simp [hp]), microStep, State.tick_ph, hp]
  exact ⟨_, rfl⟩

/-- Settles O30: the failed access records its event and leads to ABORT, which the next step carries out. -/
theorem failedAccessAbortsTheTransfer : Obligations.FailedAccessAbortsTheTransfer := by
  intro s hinv hp hr hf
  have hni : s.ph ≠ .idle := by rcases hp with hp | hp | hp | hp <;> simp [hp]
  have r : s.Running := hinv.running (hinv.busy.mpr hni)
  obtain ⟨e, he, hfail⟩ := microStep_fault (s := s.tick) hp hf
  have h1 : step s = .next { s.tick.record e with ph := .abort } := by rw [step_micro (hr 0 (by decide)) hni, hfail]
  obtain ⟨x, h2⟩ := abortMicroStep { s.tick.record e with ph := .abort }
    ((Env.tick_rstAt s.env 0).trans (hr 1 (by decide))) rfl
  refine ⟨_, e, runs_succ_iff.mpr ⟨_, h1, runs_succ_iff.mpr ⟨_, h2, runs_zero_iff.mpr rfl⟩⟩, ?_⟩
  exact ⟨rfl, rfl, rfl, rfl, rfl, rfl, r.rxvalid, rfl, rfl, r.seqvalid, rfl, rfl, rfl, rfl, rfl, rfl, he.event_cases,
    List.append_assoc ..⟩

/-- Settles O48: the bound on the steps left is at most 336, and it goes down until a response is given. -/
theorem everyTransferEnds : Obligations.EveryTransferEnds :=
  fun _ h hb hr hw => h.transfer_ends hb (h.stepsLeft_le hb) hr hw

/-- Settles O49: the engine starts where the loop starts, and every pass takes both to the same place. -/
theorem microStepsAgreeWithTheLoop : Obligations.MicroStepsAgreeWithTheLoop := by
  intro d s t hb hm _ hw hd hr hp ht
  obtain rfl := Host.Outcome.next.inj ((exec_xfer_ok hb hm hd).symm.trans ht)
  have hloop : InLoop s { s.loadWord d with rx := 0#32, rxvalid := false } := ⟨hw, rfl, rfl, rfl, rfl, rfl⟩
  have hreach := hloop.loopFrom_reaches (i := 0) (r := s.rsp) (e := s.env) (Nat.zero_add _)
    ⟨rfl, fun j => by rw [Nat.mul_zero, Nat.zero_add]⟩
  have hle : stepsPerIndex s.delayMs * seqLength s.mode.w.toNat ≤ 5 * 67 :=
    Nat.mul_le_mul (stepsPerIndex_bounds s.delayMs).2 (seqLength_le hw)
  obtain ⟨n, u, hn, hrun, hu⟩ := hreach.mono (m := 336) (by omega) hr hp
  rw [transferLoop_eq]
  exact ⟨n, u, hn, hrun, hu.busy, hu.ph, hu.outMosi, hu.outSclk, hu.outCsn, hu.events, hu.lasterr, hu.rxvalid, hu.rsp,
    hu.responses, hu.rx⟩

/-- Settles O51: of the steps that leave BUSY = 0 only the completion of the last index leaves a result. -/
theorem completedTransferEndState : Obligations.CompletedTransferEndState := by
  intro s t hinv hb hst hready hx
  have r : s.Running := hinv.running hb
  have hw : s.mode.w.toNat ≤ 32 := (hinv.width r.mvalid).2
  rcases hinv.busy_step hb hst with ⟨_, rfl⟩ | ⟨_, hout⟩
  · exact absurd hx Bool.false_ne_true
  · cases hout with
    | goesOn busy _ _ => exact absurd (hb.symm.trans (busy.symm.trans hready)) (by decide)
    | failed _ _ _ eq => rw [eq] at hready; exact absurd (hb.symm.trans hready) (by decide)
    | aborted _ eq => rw [eq] at hx; exact absurd (r.rxvalid.symm.trans hx) (by decide)
    | completed e x read last eq =>
      have hi : s.idx.toNat = 2 * s.mode.w.toNat + 2 := by rw [← len_sub_one hw r.seq]; exact congrArg _ last
      have hlt := r.tick.afterRead_lt hw read
      obtain ⟨hmosi, hsclk, hcsn⟩ := r.idle_levels read.ph hi
      rw [State.tick_idx, State.tick_mode, hi, samplesBelow_length] at hlt
      rw [eq]
      exact ⟨hmosi, hsclk, hcsn, hi, rfl, rfl, rfl, r.seq, rfl, r.mvalid, rfl, rfl, hlt⟩

/-- Settles O53: the history holds every index in full, or every index below IDX and IDX up to the failed access. -/
theorem transferCounts : Obligations.TransferCounts := by
  intro d s t u n hs h
  refine ⟨fun hx => ?_, fun he => ?_⟩
  · obtain ⟨es, hes, hc⟩ := ((h.follows hs).tracks.completed h.ended hx).counts (by decide)
    exact ⟨es, hes, hc.writes.trans (by simp only [seqLength]; omega), hc.reads, hc.waits⟩
  · obtain ⟨es', ⟨ph, es'', e, hfail, hrec, rfl⟩, hev⟩ := (h.followsAbort hs).ended h.ended he
    obtain ⟨hk, hplace⟩ := hfail.place
    obtain ⟨es, rfl, hc⟩ := hrec.counts hk
    exact ⟨es, e, ph.eventsDone, by simp [hev], hc.reads, hc.waits, hc.writes, hplace⟩

/-- Settles O54: every read shifts its level in where the trigger is set, and the last step answers RX. -/
theorem resultLaw : Obligations.ResultLaw := by
  intro d s t u n hs h hx
  obtain ⟨es, m, _, hev, hlv, hrx⟩ := h.result hs hx
  obtain ⟨_, v, _, hv, hst⟩ := h.last_step hs
  obtain ⟨_, _, _, _, _, _, _, _, _, _, _, hrsp, _⟩ := completedTransferEndState v u hv.inv hv.busy hst h.ended hx
  exact ⟨es, m, hev, hlv, hrsp, hrx⟩

/-- Settles O55: without reset and failed access the transfer is completed, and its samples are the bits sent. -/
theorem loopbackReturnsTheWord : Obligations.LoopbackReturnsTheWord := by
  intro d s t u n hs h hl hr he
  obtain ⟨hx, hrsp, hresp⟩ := h.completes hs hr he
  obtain rfl : u.rx = d := h.loopback_rx hs hl hx
  exact ⟨hx, rfl, hrsp, hresp⟩

end

section
/-! PROOFS, family 60_exceptions. A next state from every kind of step, the taking of an error included (R213, R219,
R220). -/

namespace Sys2Proof.Machine

/-- A step with `rst` = 1 is the reset, whatever PH is (R240). -/
theorem step_reset {s : State} (hr : s.env.rstAt 0 = true) : step s = .next s.hardReset := by
  simp [step, cycle, hr]

/-- A word that does not decode is answered by raising IllegalCommand, or not accepted while BUSY = 1 (R97, R91). -/
theorem acceptWord_error {w : CmdWord} {e : Reject} (h : decode w = .error e) (s : State) :
    acceptWord w s = .next (s.whenReady fun s => s.raise .illegalCommand) := by
  simp [acceptWord, h]

theorem acceptWord_exists_next (w : CmdWord) (s : State) : ∃ t, acceptWord w s = .next t := by
  cases h : decode w with
  | ok i => exact ⟨_, (acceptWord_ok h s).trans (exec_eq i s)⟩
  | error e => exact ⟨_, acceptWord_error h s⟩

theorem idleStep_exists_next (s : State) : ∃ t, idleStep s = .next t := by
  cases hb : s.busy with
  | true => exact ⟨_, idleStep_busy hb⟩
  | false =>
    match hw : s.env.pending with
    | [] => exact ⟨_, idleStep_nothing hb hw⟩
    | none :: _ => exact ⟨_, idleStep_pause hb hw⟩
    | some w :: rest =>
      rw [idleStep_word hb hw]
      exact acceptWord_exists_next w _

theorem step_exists_next (s : State) : ∃ t, step s = .next t := by
  cases hr : s.env.rstAt 0 with
  | true => exact ⟨_, step_reset hr⟩
  | false =>
    by_cases hp : s.ph = .idle
    · rw [step_idle hr hp]
      exact idleStep_exists_next s
    · exact ⟨_, step_micro hr hp⟩

end Sys2Proof.Machine
end

section
/-! PROOFS, family 60_exceptions. The obligations. -/

open Sys2Proof Sys2Proof.Machine

/-- Settles O12: a step is a reset, a micro-step or an idle step, and each answers a next state, as every command does. -/
theorem nothingEverStopsTheBlock : Obligations.NothingEverStopsTheBlock :=
  ⟨step_exists_next, fun i s => ⟨_, exec_eq i s⟩⟩

end

section
/-! PROOFS, family 70_reset_and_hazards. The first and the last index of a sequence (R245). -/

namespace Sys2Proof.Machine

/-- The padding reaches both ends: the pairs begin at index 1 or 2, so they end before the last index, 2W + 2. -/
theorem PaddedPairs.ends {α : Type} {f : Nat → α} {a w : Nat} {p : α} {x y : Nat → α}
    (h : PaddedPairs f a w p x y) (ha : 1 ≤ a ∧ a ≤ 2) : f 0 = p ∧ f (2 * w + 2) = p :=
  ⟨h.before 0 ha.1, h.after (2 * w + 2) (by omega)⟩

end Sys2Proof.Machine
end

section
/-! PROOFS, family 70_reset_and_hazards. The obligations. -/

open Sys2Proof Sys2Proof.Machine

/-- Settles O11: the step is the reset, which keeps the histories and the inputs to come and nothing else. -/
theorem resetWinsOverEverything : Obligations.ResetWinsOverEverything :=
  fun s hr => ⟨s.hardReset, step_reset hr, rfl, rfl, rfl, rfl, rfl, rfl, rfl, rfl⟩

/-- Settles O37: both ends of each sequence are padding, and the padding is the line's idle level. -/
theorem idleLevelsAtBothEnds : Obligations.IdleLevelsAtBothEnds := by
  intro d cpol cpha w
  obtain ⟨dout_first, dout_last⟩ := (doutSeq_pairs d cpha w).ends (lead_bounds cpha)
  obtain ⟨clk_first, clk_last⟩ := (clkSeq_pairs cpol w).ends (by decide)
  obtain ⟨cs_first, cs_last⟩ := (csSeq_pairs w).ends (by decide)
  exact ⟨dout_first, clk_first, cs_first, fun _ => dout_last, clk_last, cs_last⟩

end
